-- ==== Sys2Proof/Word.lean ====
section
/-! DEFINITION. The word types of the machine: what 00_scope.md R8 calls a byte and a word, and the
two narrower widths the PPU has (10_state.md R40, R45). -/

namespace Sys2Proof

/-- 8 bits: a register, a memory cell, an operand byte (R6, R8). -/
abbrev Byte := BitVec 8

/-- 16 bits: PC and a CPU address (R6, R8). -/
abbrev Word := BitVec 16

/-- 14 bits: the PPU's address pointer `vaddr` (10_state.md R40). -/
abbrev VAddr := BitVec 14

/-- 6 bits: an index into the 64-entry master palette, a framebuffer cell (10_state.md R45). -/
abbrev Colour := BitVec 6

end Sys2Proof
end

