-- ==== Sys2Proof/Syntax.lean ====
section
/-! DEFINITION. The instructions: one constructor per row of the opcode table (30_encoding.md R78),
named after the row's mnemonic and addressing mode, with the operand its mode carries (R76, R77). -/

namespace Sys2Proof

/-- The 56 mnemonics, in the order of 30_encoding.md R79. -/
inductive Mnemonic where
  | lda | ldx | ldy | sta | stx | sty | tax | tay | txa | tya | tsx | txs
  | adc | sbc | and | ora | eor | bit | cmp | cpx | cpy | inc | dec | inx | iny | dex | dey
  | asl | lsr | rol | ror
  | bcc | bcs | beq | bmi | bne | bpl | bvc | bvs | jmp | jsr | rts
  | pha | php | pla | plp | clc | cld | cli | clv | sec | sed | sei | brk | rti | nop
  deriving DecidableEq, Repr

/-- The 13 addressing modes of 30_encoding.md R76, under its own names. -/
inductive Mode where
  | imp | acc | imm | zp | zpx | zpy | abs | absx | absy | ind | indx | indy | rel
  deriving DecidableEq, Repr

/-- An instruction. `v` is an immediate byte, `b` a zero-page address or pointer base, `w` a 16-bit
address or pointer, `d` a branch displacement (30_encoding.md R76). -/
inductive Instr where
  -- 41_load_store_transfer.md
  | ldaImm (v : Byte) | ldaZp (b : Byte) | ldaZpx (b : Byte) | ldaAbs (w : Word)
  | ldaAbsx (w : Word) | ldaAbsy (w : Word) | ldaIndx (b : Byte) | ldaIndy (b : Byte)
  | ldxImm (v : Byte) | ldxZp (b : Byte) | ldxZpy (b : Byte) | ldxAbs (w : Word)
  | ldxAbsy (w : Word)
  | ldyImm (v : Byte) | ldyZp (b : Byte) | ldyZpx (b : Byte) | ldyAbs (w : Word)
  | ldyAbsx (w : Word)
  | staZp (b : Byte) | staZpx (b : Byte) | staAbs (w : Word) | staAbsx (w : Word)
  | staAbsy (w : Word) | staIndx (b : Byte) | staIndy (b : Byte)
  | stxZp (b : Byte) | stxZpy (b : Byte) | stxAbs (w : Word)
  | styZp (b : Byte) | styZpx (b : Byte) | styAbs (w : Word)
  | tax
  | tay
  | txa
  | tya
  | tsx
  | txs
  -- 42_arithmetic_logic.md
  | adcImm (v : Byte) | adcZp (b : Byte) | adcZpx (b : Byte) | adcAbs (w : Word)
  | adcAbsx (w : Word) | adcAbsy (w : Word) | adcIndx (b : Byte) | adcIndy (b : Byte)
  | sbcImm (v : Byte) | sbcZp (b : Byte) | sbcZpx (b : Byte) | sbcAbs (w : Word)
  | sbcAbsx (w : Word) | sbcAbsy (w : Word) | sbcIndx (b : Byte) | sbcIndy (b : Byte)
  | andImm (v : Byte) | andZp (b : Byte) | andZpx (b : Byte) | andAbs (w : Word)
  | andAbsx (w : Word) | andAbsy (w : Word) | andIndx (b : Byte) | andIndy (b : Byte)
  | oraImm (v : Byte) | oraZp (b : Byte) | oraZpx (b : Byte) | oraAbs (w : Word)
  | oraAbsx (w : Word) | oraAbsy (w : Word) | oraIndx (b : Byte) | oraIndy (b : Byte)
  | eorImm (v : Byte) | eorZp (b : Byte) | eorZpx (b : Byte) | eorAbs (w : Word)
  | eorAbsx (w : Word) | eorAbsy (w : Word) | eorIndx (b : Byte) | eorIndy (b : Byte)
  | bitZp (b : Byte) | bitAbs (w : Word)
  | cmpImm (v : Byte) | cmpZp (b : Byte) | cmpZpx (b : Byte) | cmpAbs (w : Word)
  | cmpAbsx (w : Word) | cmpAbsy (w : Word) | cmpIndx (b : Byte) | cmpIndy (b : Byte)
  | cpxImm (v : Byte) | cpxZp (b : Byte) | cpxAbs (w : Word)
  | cpyImm (v : Byte) | cpyZp (b : Byte) | cpyAbs (w : Word)
  | incZp (b : Byte) | incZpx (b : Byte) | incAbs (w : Word) | incAbsx (w : Word)
  | decZp (b : Byte) | decZpx (b : Byte) | decAbs (w : Word) | decAbsx (w : Word)
  | inx
  | iny
  | dex
  | dey
  -- 43_shift_rotate.md
  | aslAcc | aslZp (b : Byte) | aslZpx (b : Byte) | aslAbs (w : Word) | aslAbsx (w : Word)
  | lsrAcc | lsrZp (b : Byte) | lsrZpx (b : Byte) | lsrAbs (w : Word) | lsrAbsx (w : Word)
  | rolAcc | rolZp (b : Byte) | rolZpx (b : Byte) | rolAbs (w : Word) | rolAbsx (w : Word)
  | rorAcc | rorZp (b : Byte) | rorZpx (b : Byte) | rorAbs (w : Word) | rorAbsx (w : Word)
  -- 44_control_transfer.md
  | bcc (d : Byte)
  | bcs (d : Byte)
  | beq (d : Byte)
  | bmi (d : Byte)
  | bne (d : Byte)
  | bpl (d : Byte)
  | bvc (d : Byte)
  | bvs (d : Byte)
  | jmpAbs (w : Word) | jmpInd (w : Word)
  | jsrAbs (w : Word)
  | rts
  -- 45_stack_flag_system.md
  | pha
  | php
  | pla
  | plp
  | clc
  | cld
  | cli
  | clv
  | sec
  | sed
  | sei
  | brk
  | rti
  | nop
  deriving DecidableEq, Repr

end Sys2Proof
end

