-- ==== Sys2Proof/Decode.lean ====
section
/-! DEFINITION. The opcode map read both ways: the decoder, total on every byte (30_encoding.md R75 to
R84), and after it the encoder, each written from the map of R78 and the modes of R76. -/

namespace Sys2Proof

/-! ### Byte order (20_memory.md R48, 00_scope.md R8) -/

/-- `v[7:0]` of a word. -/
def loByte (w : Word) : Byte := w.setWidth 8

/-- `v[15:8]` of a word. -/
def hiByte (w : Word) : Byte := (w >>> 8).setWidth 8

/-- `hi:lo`, that is `(hi << 8) | lo` (00_scope.md R8). -/
def ofHiLo (hi lo : Byte) : Word := hi ++ lo

/-! ### The decoder -/

/-- Why bytes are not an instruction: the opcode byte has no mapping (R81), or there are fewer bytes
than the mode's length (R76). -/
inductive DecodeError where
  | unmapped (op : Byte)
  | truncated (op : Byte)
  | empty
  deriving DecidableEq, Repr

/-- Row 0x of the map of R78. -/
def decodeRow0 (lo : Nat) (b1 : Byte) (w : Word) : Option Instr :=
  match lo with
  | 0x0 => some .brk
  | 0x1 => some (.oraIndx b1)
  | 0x5 => some (.oraZp b1)
  | 0x6 => some (.aslZp b1)
  | 0x8 => some .php
  | 0x9 => some (.oraImm b1)
  | 0xA => some .aslAcc
  | 0xD => some (.oraAbs w)
  | 0xE => some (.aslAbs w)
  | _ => none

/-- Row 1x of the map of R78. -/
def decodeRow1 (lo : Nat) (b1 : Byte) (w : Word) : Option Instr :=
  match lo with
  | 0x0 => some (.bpl b1)
  | 0x1 => some (.oraIndy b1)
  | 0x5 => some (.oraZpx b1)
  | 0x6 => some (.aslZpx b1)
  | 0x8 => some .clc
  | 0x9 => some (.oraAbsy w)
  | 0xD => some (.oraAbsx w)
  | 0xE => some (.aslAbsx w)
  | _ => none

/-- Row 2x of the map of R78. -/
def decodeRow2 (lo : Nat) (b1 : Byte) (w : Word) : Option Instr :=
  match lo with
  | 0x0 => some (.jsrAbs w)
  | 0x1 => some (.andIndx b1)
  | 0x4 => some (.bitZp b1)
  | 0x5 => some (.andZp b1)
  | 0x6 => some (.rolZp b1)
  | 0x8 => some .plp
  | 0x9 => some (.andImm b1)
  | 0xA => some .rolAcc
  | 0xC => some (.bitAbs w)
  | 0xD => some (.andAbs w)
  | 0xE => some (.rolAbs w)
  | _ => none

/-- Row 3x of the map of R78. -/
def decodeRow3 (lo : Nat) (b1 : Byte) (w : Word) : Option Instr :=
  match lo with
  | 0x0 => some (.bmi b1)
  | 0x1 => some (.andIndy b1)
  | 0x5 => some (.andZpx b1)
  | 0x6 => some (.rolZpx b1)
  | 0x8 => some .sec
  | 0x9 => some (.andAbsy w)
  | 0xD => some (.andAbsx w)
  | 0xE => some (.rolAbsx w)
  | _ => none

/-- Row 4x of the map of R78. -/
def decodeRow4 (lo : Nat) (b1 : Byte) (w : Word) : Option Instr :=
  match lo with
  | 0x0 => some .rti
  | 0x1 => some (.eorIndx b1)
  | 0x5 => some (.eorZp b1)
  | 0x6 => some (.lsrZp b1)
  | 0x8 => some .pha
  | 0x9 => some (.eorImm b1)
  | 0xA => some .lsrAcc
  | 0xC => some (.jmpAbs w)
  | 0xD => some (.eorAbs w)
  | 0xE => some (.lsrAbs w)
  | _ => none

/-- Row 5x of the map of R78. -/
def decodeRow5 (lo : Nat) (b1 : Byte) (w : Word) : Option Instr :=
  match lo with
  | 0x0 => some (.bvc b1)
  | 0x1 => some (.eorIndy b1)
  | 0x5 => some (.eorZpx b1)
  | 0x6 => some (.lsrZpx b1)
  | 0x8 => some .cli
  | 0x9 => some (.eorAbsy w)
  | 0xD => some (.eorAbsx w)
  | 0xE => some (.lsrAbsx w)
  | _ => none

/-- Row 6x of the map of R78. -/
def decodeRow6 (lo : Nat) (b1 : Byte) (w : Word) : Option Instr :=
  match lo with
  | 0x0 => some .rts
  | 0x1 => some (.adcIndx b1)
  | 0x5 => some (.adcZp b1)
  | 0x6 => some (.rorZp b1)
  | 0x8 => some .pla
  | 0x9 => some (.adcImm b1)
  | 0xA => some .rorAcc
  | 0xC => some (.jmpInd w)
  | 0xD => some (.adcAbs w)
  | 0xE => some (.rorAbs w)
  | _ => none

/-- Row 7x of the map of R78. -/
def decodeRow7 (lo : Nat) (b1 : Byte) (w : Word) : Option Instr :=
  match lo with
  | 0x0 => some (.bvs b1)
  | 0x1 => some (.adcIndy b1)
  | 0x5 => some (.adcZpx b1)
  | 0x6 => some (.rorZpx b1)
  | 0x8 => some .sei
  | 0x9 => some (.adcAbsy w)
  | 0xD => some (.adcAbsx w)
  | 0xE => some (.rorAbsx w)
  | _ => none

/-- Row 8x of the map of R78. -/
def decodeRow8 (lo : Nat) (b1 : Byte) (w : Word) : Option Instr :=
  match lo with
  | 0x1 => some (.staIndx b1)
  | 0x4 => some (.styZp b1)
  | 0x5 => some (.staZp b1)
  | 0x6 => some (.stxZp b1)
  | 0x8 => some .dey
  | 0xA => some .txa
  | 0xC => some (.styAbs w)
  | 0xD => some (.staAbs w)
  | 0xE => some (.stxAbs w)
  | _ => none

/-- Row 9x of the map of R78. -/
def decodeRow9 (lo : Nat) (b1 : Byte) (w : Word) : Option Instr :=
  match lo with
  | 0x0 => some (.bcc b1)
  | 0x1 => some (.staIndy b1)
  | 0x4 => some (.styZpx b1)
  | 0x5 => some (.staZpx b1)
  | 0x6 => some (.stxZpy b1)
  | 0x8 => some .tya
  | 0x9 => some (.staAbsy w)
  | 0xA => some .txs
  | 0xD => some (.staAbsx w)
  | _ => none

/-- Row Ax of the map of R78. -/
def decodeRowA (lo : Nat) (b1 : Byte) (w : Word) : Option Instr :=
  match lo with
  | 0x0 => some (.ldyImm b1)
  | 0x1 => some (.ldaIndx b1)
  | 0x2 => some (.ldxImm b1)
  | 0x4 => some (.ldyZp b1)
  | 0x5 => some (.ldaZp b1)
  | 0x6 => some (.ldxZp b1)
  | 0x8 => some .tay
  | 0x9 => some (.ldaImm b1)
  | 0xA => some .tax
  | 0xC => some (.ldyAbs w)
  | 0xD => some (.ldaAbs w)
  | 0xE => some (.ldxAbs w)
  | _ => none

/-- Row Bx of the map of R78. -/
def decodeRowB (lo : Nat) (b1 : Byte) (w : Word) : Option Instr :=
  match lo with
  | 0x0 => some (.bcs b1)
  | 0x1 => some (.ldaIndy b1)
  | 0x4 => some (.ldyZpx b1)
  | 0x5 => some (.ldaZpx b1)
  | 0x6 => some (.ldxZpy b1)
  | 0x8 => some .clv
  | 0x9 => some (.ldaAbsy w)
  | 0xA => some .tsx
  | 0xC => some (.ldyAbsx w)
  | 0xD => some (.ldaAbsx w)
  | 0xE => some (.ldxAbsy w)
  | _ => none

/-- Row Cx of the map of R78. -/
def decodeRowC (lo : Nat) (b1 : Byte) (w : Word) : Option Instr :=
  match lo with
  | 0x0 => some (.cpyImm b1)
  | 0x1 => some (.cmpIndx b1)
  | 0x4 => some (.cpyZp b1)
  | 0x5 => some (.cmpZp b1)
  | 0x6 => some (.decZp b1)
  | 0x8 => some .iny
  | 0x9 => some (.cmpImm b1)
  | 0xA => some .dex
  | 0xC => some (.cpyAbs w)
  | 0xD => some (.cmpAbs w)
  | 0xE => some (.decAbs w)
  | _ => none

/-- Row Dx of the map of R78. -/
def decodeRowD (lo : Nat) (b1 : Byte) (w : Word) : Option Instr :=
  match lo with
  | 0x0 => some (.bne b1)
  | 0x1 => some (.cmpIndy b1)
  | 0x5 => some (.cmpZpx b1)
  | 0x6 => some (.decZpx b1)
  | 0x8 => some .cld
  | 0x9 => some (.cmpAbsy w)
  | 0xD => some (.cmpAbsx w)
  | 0xE => some (.decAbsx w)
  | _ => none

/-- Row Ex of the map of R78. -/
def decodeRowE (lo : Nat) (b1 : Byte) (w : Word) : Option Instr :=
  match lo with
  | 0x0 => some (.cpxImm b1)
  | 0x1 => some (.sbcIndx b1)
  | 0x4 => some (.cpxZp b1)
  | 0x5 => some (.sbcZp b1)
  | 0x6 => some (.incZp b1)
  | 0x8 => some .inx
  | 0x9 => some (.sbcImm b1)
  | 0xA => some .nop
  | 0xC => some (.cpxAbs w)
  | 0xD => some (.sbcAbs w)
  | 0xE => some (.incAbs w)
  | _ => none

/-- Row Fx of the map of R78. -/
def decodeRowF (lo : Nat) (b1 : Byte) (w : Word) : Option Instr :=
  match lo with
  | 0x0 => some (.beq b1)
  | 0x1 => some (.sbcIndy b1)
  | 0x5 => some (.sbcZpx b1)
  | 0x6 => some (.incZpx b1)
  | 0x8 => some .sed
  | 0x9 => some (.sbcAbsy w)
  | 0xD => some (.sbcAbsx w)
  | 0xE => some (.incAbsx w)
  | _ => none

/-- The instruction of an opcode byte and the two bytes after it, as the fetch always reads them: a
lookup of the whole byte in the map of 30_encoding.md R78, high nibble by low nibble (R75, R83). An
F3 operand has its low byte first. `none`: one of the 105 bytes with no mapping (R81). -/
def decode3 (op b1 b2 : Byte) : Option Instr :=
  let lo := op.toNat % 16
  let w := ofHiLo b2 b1
  match op.toNat / 16 with
  | 0x0 => decodeRow0 lo b1 w
  | 0x1 => decodeRow1 lo b1 w
  | 0x2 => decodeRow2 lo b1 w
  | 0x3 => decodeRow3 lo b1 w
  | 0x4 => decodeRow4 lo b1 w
  | 0x5 => decodeRow5 lo b1 w
  | 0x6 => decodeRow6 lo b1 w
  | 0x7 => decodeRow7 lo b1 w
  | 0x8 => decodeRow8 lo b1 w
  | 0x9 => decodeRow9 lo b1 w
  | 0xA => decodeRowA lo b1 w
  | 0xB => decodeRowB lo b1 w
  | 0xC => decodeRowC lo b1 w
  | 0xD => decodeRowD lo b1 w
  | 0xE => decodeRowE lo b1 w
  | _ => decodeRowF lo b1 w

/-- The length of an instruction is a function of its mode alone (30_encoding.md R75, R76). -/
def Mode.length : Mode → Nat
  | .imp | .acc => 1
  | .imm | .zp | .zpx | .zpy | .indx | .indy | .rel => 2
  | .abs | .absx | .absy | .ind => 3

/-! ### The encoder -/

/-- One row of the opcode map with the operand bytes of one instruction. -/
structure OpInfo where
  opcode : Byte
  mnemonic : Mnemonic
  mode : Mode
  operand : List Byte
  deriving DecidableEq, Repr

/-- The row of 30_encoding.md R78 an instruction belongs to, and its operand bytes, low byte first
(R75, R77). -/
def Instr.info : Instr → OpInfo
  | .ldaImm v => ⟨0xA9, .lda, .imm, [v]⟩
  | .ldaZp b => ⟨0xA5, .lda, .zp, [b]⟩
  | .ldaZpx b => ⟨0xB5, .lda, .zpx, [b]⟩
  | .ldaAbs w => ⟨0xAD, .lda, .abs, [loByte w, hiByte w]⟩
  | .ldaAbsx w => ⟨0xBD, .lda, .absx, [loByte w, hiByte w]⟩
  | .ldaAbsy w => ⟨0xB9, .lda, .absy, [loByte w, hiByte w]⟩
  | .ldaIndx b => ⟨0xA1, .lda, .indx, [b]⟩
  | .ldaIndy b => ⟨0xB1, .lda, .indy, [b]⟩
  | .ldxImm v => ⟨0xA2, .ldx, .imm, [v]⟩
  | .ldxZp b => ⟨0xA6, .ldx, .zp, [b]⟩
  | .ldxZpy b => ⟨0xB6, .ldx, .zpy, [b]⟩
  | .ldxAbs w => ⟨0xAE, .ldx, .abs, [loByte w, hiByte w]⟩
  | .ldxAbsy w => ⟨0xBE, .ldx, .absy, [loByte w, hiByte w]⟩
  | .ldyImm v => ⟨0xA0, .ldy, .imm, [v]⟩
  | .ldyZp b => ⟨0xA4, .ldy, .zp, [b]⟩
  | .ldyZpx b => ⟨0xB4, .ldy, .zpx, [b]⟩
  | .ldyAbs w => ⟨0xAC, .ldy, .abs, [loByte w, hiByte w]⟩
  | .ldyAbsx w => ⟨0xBC, .ldy, .absx, [loByte w, hiByte w]⟩
  | .staZp b => ⟨0x85, .sta, .zp, [b]⟩
  | .staZpx b => ⟨0x95, .sta, .zpx, [b]⟩
  | .staAbs w => ⟨0x8D, .sta, .abs, [loByte w, hiByte w]⟩
  | .staAbsx w => ⟨0x9D, .sta, .absx, [loByte w, hiByte w]⟩
  | .staAbsy w => ⟨0x99, .sta, .absy, [loByte w, hiByte w]⟩
  | .staIndx b => ⟨0x81, .sta, .indx, [b]⟩
  | .staIndy b => ⟨0x91, .sta, .indy, [b]⟩
  | .stxZp b => ⟨0x86, .stx, .zp, [b]⟩
  | .stxZpy b => ⟨0x96, .stx, .zpy, [b]⟩
  | .stxAbs w => ⟨0x8E, .stx, .abs, [loByte w, hiByte w]⟩
  | .styZp b => ⟨0x84, .sty, .zp, [b]⟩
  | .styZpx b => ⟨0x94, .sty, .zpx, [b]⟩
  | .styAbs w => ⟨0x8C, .sty, .abs, [loByte w, hiByte w]⟩
  | .tax => ⟨0xAA, .tax, .imp, []⟩
  | .tay => ⟨0xA8, .tay, .imp, []⟩
  | .txa => ⟨0x8A, .txa, .imp, []⟩
  | .tya => ⟨0x98, .tya, .imp, []⟩
  | .tsx => ⟨0xBA, .tsx, .imp, []⟩
  | .txs => ⟨0x9A, .txs, .imp, []⟩
  | .adcImm v => ⟨0x69, .adc, .imm, [v]⟩
  | .adcZp b => ⟨0x65, .adc, .zp, [b]⟩
  | .adcZpx b => ⟨0x75, .adc, .zpx, [b]⟩
  | .adcAbs w => ⟨0x6D, .adc, .abs, [loByte w, hiByte w]⟩
  | .adcAbsx w => ⟨0x7D, .adc, .absx, [loByte w, hiByte w]⟩
  | .adcAbsy w => ⟨0x79, .adc, .absy, [loByte w, hiByte w]⟩
  | .adcIndx b => ⟨0x61, .adc, .indx, [b]⟩
  | .adcIndy b => ⟨0x71, .adc, .indy, [b]⟩
  | .sbcImm v => ⟨0xE9, .sbc, .imm, [v]⟩
  | .sbcZp b => ⟨0xE5, .sbc, .zp, [b]⟩
  | .sbcZpx b => ⟨0xF5, .sbc, .zpx, [b]⟩
  | .sbcAbs w => ⟨0xED, .sbc, .abs, [loByte w, hiByte w]⟩
  | .sbcAbsx w => ⟨0xFD, .sbc, .absx, [loByte w, hiByte w]⟩
  | .sbcAbsy w => ⟨0xF9, .sbc, .absy, [loByte w, hiByte w]⟩
  | .sbcIndx b => ⟨0xE1, .sbc, .indx, [b]⟩
  | .sbcIndy b => ⟨0xF1, .sbc, .indy, [b]⟩
  | .andImm v => ⟨0x29, .and, .imm, [v]⟩
  | .andZp b => ⟨0x25, .and, .zp, [b]⟩
  | .andZpx b => ⟨0x35, .and, .zpx, [b]⟩
  | .andAbs w => ⟨0x2D, .and, .abs, [loByte w, hiByte w]⟩
  | .andAbsx w => ⟨0x3D, .and, .absx, [loByte w, hiByte w]⟩
  | .andAbsy w => ⟨0x39, .and, .absy, [loByte w, hiByte w]⟩
  | .andIndx b => ⟨0x21, .and, .indx, [b]⟩
  | .andIndy b => ⟨0x31, .and, .indy, [b]⟩
  | .oraImm v => ⟨0x09, .ora, .imm, [v]⟩
  | .oraZp b => ⟨0x05, .ora, .zp, [b]⟩
  | .oraZpx b => ⟨0x15, .ora, .zpx, [b]⟩
  | .oraAbs w => ⟨0x0D, .ora, .abs, [loByte w, hiByte w]⟩
  | .oraAbsx w => ⟨0x1D, .ora, .absx, [loByte w, hiByte w]⟩
  | .oraAbsy w => ⟨0x19, .ora, .absy, [loByte w, hiByte w]⟩
  | .oraIndx b => ⟨0x01, .ora, .indx, [b]⟩
  | .oraIndy b => ⟨0x11, .ora, .indy, [b]⟩
  | .eorImm v => ⟨0x49, .eor, .imm, [v]⟩
  | .eorZp b => ⟨0x45, .eor, .zp, [b]⟩
  | .eorZpx b => ⟨0x55, .eor, .zpx, [b]⟩
  | .eorAbs w => ⟨0x4D, .eor, .abs, [loByte w, hiByte w]⟩
  | .eorAbsx w => ⟨0x5D, .eor, .absx, [loByte w, hiByte w]⟩
  | .eorAbsy w => ⟨0x59, .eor, .absy, [loByte w, hiByte w]⟩
  | .eorIndx b => ⟨0x41, .eor, .indx, [b]⟩
  | .eorIndy b => ⟨0x51, .eor, .indy, [b]⟩
  | .bitZp b => ⟨0x24, .bit, .zp, [b]⟩
  | .bitAbs w => ⟨0x2C, .bit, .abs, [loByte w, hiByte w]⟩
  | .cmpImm v => ⟨0xC9, .cmp, .imm, [v]⟩
  | .cmpZp b => ⟨0xC5, .cmp, .zp, [b]⟩
  | .cmpZpx b => ⟨0xD5, .cmp, .zpx, [b]⟩
  | .cmpAbs w => ⟨0xCD, .cmp, .abs, [loByte w, hiByte w]⟩
  | .cmpAbsx w => ⟨0xDD, .cmp, .absx, [loByte w, hiByte w]⟩
  | .cmpAbsy w => ⟨0xD9, .cmp, .absy, [loByte w, hiByte w]⟩
  | .cmpIndx b => ⟨0xC1, .cmp, .indx, [b]⟩
  | .cmpIndy b => ⟨0xD1, .cmp, .indy, [b]⟩
  | .cpxImm v => ⟨0xE0, .cpx, .imm, [v]⟩
  | .cpxZp b => ⟨0xE4, .cpx, .zp, [b]⟩
  | .cpxAbs w => ⟨0xEC, .cpx, .abs, [loByte w, hiByte w]⟩
  | .cpyImm v => ⟨0xC0, .cpy, .imm, [v]⟩
  | .cpyZp b => ⟨0xC4, .cpy, .zp, [b]⟩
  | .cpyAbs w => ⟨0xCC, .cpy, .abs, [loByte w, hiByte w]⟩
  | .incZp b => ⟨0xE6, .inc, .zp, [b]⟩
  | .incZpx b => ⟨0xF6, .inc, .zpx, [b]⟩
  | .incAbs w => ⟨0xEE, .inc, .abs, [loByte w, hiByte w]⟩
  | .incAbsx w => ⟨0xFE, .inc, .absx, [loByte w, hiByte w]⟩
  | .decZp b => ⟨0xC6, .dec, .zp, [b]⟩
  | .decZpx b => ⟨0xD6, .dec, .zpx, [b]⟩
  | .decAbs w => ⟨0xCE, .dec, .abs, [loByte w, hiByte w]⟩
  | .decAbsx w => ⟨0xDE, .dec, .absx, [loByte w, hiByte w]⟩
  | .inx => ⟨0xE8, .inx, .imp, []⟩
  | .iny => ⟨0xC8, .iny, .imp, []⟩
  | .dex => ⟨0xCA, .dex, .imp, []⟩
  | .dey => ⟨0x88, .dey, .imp, []⟩
  | .aslAcc => ⟨0x0A, .asl, .acc, []⟩
  | .aslZp b => ⟨0x06, .asl, .zp, [b]⟩
  | .aslZpx b => ⟨0x16, .asl, .zpx, [b]⟩
  | .aslAbs w => ⟨0x0E, .asl, .abs, [loByte w, hiByte w]⟩
  | .aslAbsx w => ⟨0x1E, .asl, .absx, [loByte w, hiByte w]⟩
  | .lsrAcc => ⟨0x4A, .lsr, .acc, []⟩
  | .lsrZp b => ⟨0x46, .lsr, .zp, [b]⟩
  | .lsrZpx b => ⟨0x56, .lsr, .zpx, [b]⟩
  | .lsrAbs w => ⟨0x4E, .lsr, .abs, [loByte w, hiByte w]⟩
  | .lsrAbsx w => ⟨0x5E, .lsr, .absx, [loByte w, hiByte w]⟩
  | .rolAcc => ⟨0x2A, .rol, .acc, []⟩
  | .rolZp b => ⟨0x26, .rol, .zp, [b]⟩
  | .rolZpx b => ⟨0x36, .rol, .zpx, [b]⟩
  | .rolAbs w => ⟨0x2E, .rol, .abs, [loByte w, hiByte w]⟩
  | .rolAbsx w => ⟨0x3E, .rol, .absx, [loByte w, hiByte w]⟩
  | .rorAcc => ⟨0x6A, .ror, .acc, []⟩
  | .rorZp b => ⟨0x66, .ror, .zp, [b]⟩
  | .rorZpx b => ⟨0x76, .ror, .zpx, [b]⟩
  | .rorAbs w => ⟨0x6E, .ror, .abs, [loByte w, hiByte w]⟩
  | .rorAbsx w => ⟨0x7E, .ror, .absx, [loByte w, hiByte w]⟩
  | .bcc d => ⟨0x90, .bcc, .rel, [d]⟩
  | .bcs d => ⟨0xB0, .bcs, .rel, [d]⟩
  | .beq d => ⟨0xF0, .beq, .rel, [d]⟩
  | .bmi d => ⟨0x30, .bmi, .rel, [d]⟩
  | .bne d => ⟨0xD0, .bne, .rel, [d]⟩
  | .bpl d => ⟨0x10, .bpl, .rel, [d]⟩
  | .bvc d => ⟨0x50, .bvc, .rel, [d]⟩
  | .bvs d => ⟨0x70, .bvs, .rel, [d]⟩
  | .jmpAbs w => ⟨0x4C, .jmp, .abs, [loByte w, hiByte w]⟩
  | .jmpInd w => ⟨0x6C, .jmp, .ind, [loByte w, hiByte w]⟩
  | .jsrAbs w => ⟨0x20, .jsr, .abs, [loByte w, hiByte w]⟩
  | .rts => ⟨0x60, .rts, .imp, []⟩
  | .pha => ⟨0x48, .pha, .imp, []⟩
  | .php => ⟨0x08, .php, .imp, []⟩
  | .pla => ⟨0x68, .pla, .imp, []⟩
  | .plp => ⟨0x28, .plp, .imp, []⟩
  | .clc => ⟨0x18, .clc, .imp, []⟩
  | .cld => ⟨0xD8, .cld, .imp, []⟩
  | .cli => ⟨0x58, .cli, .imp, []⟩
  | .clv => ⟨0xB8, .clv, .imp, []⟩
  | .sec => ⟨0x38, .sec, .imp, []⟩
  | .sed => ⟨0xF8, .sed, .imp, []⟩
  | .sei => ⟨0x78, .sei, .imp, []⟩
  | .brk => ⟨0x00, .brk, .imp, []⟩
  | .rti => ⟨0x40, .rti, .imp, []⟩
  | .nop => ⟨0xEA, .nop, .imp, []⟩

def Instr.opcode (i : Instr) : Byte := i.info.opcode

def Instr.mnemonic (i : Instr) : Mnemonic := i.info.mnemonic

def Instr.mode (i : Instr) : Mode := i.info.mode

def Instr.length (i : Instr) : Nat := i.mode.length

/-- The bytes of an instruction, the opcode first (30_encoding.md R75). -/
def encode (i : Instr) : List Byte := i.info.opcode :: i.info.operand

/-- The instruction at the head of a list of bytes and the bytes after it, or why there is none. -/
def decode : List Byte → Except DecodeError (Instr × List Byte)
  | [] => .error .empty
  | op :: rest =>
    match decode3 op (rest.getD 0 0) (rest.getD 1 0) with
    | none => .error (.unmapped op)
    | some i =>
      if i.length ≤ rest.length + 1 then .ok (i, rest.drop (i.length - 1)) else .error (.truncated op)

/-- What `decode` reads from the first `nbits` bits of `w`, numbered as the opcode table numbers them:
byte k is bits 8k+7..8k, and every bit from `nbits` on is 0. -/
def decodeTableWord (nbits w : Nat) : Option Instr :=
  let v := w % 2 ^ nbits
  decode3 (BitVec.ofNat 8 v) (BitVec.ofNat 8 (v / 0x100)) (BitVec.ofNat 8 (v / 0x10000))

/-! ### Base cycle counts -/

/-- The table of 30_encoding.md R84, one row per high nibble; 0 stands for `-`, an invalid byte. -/
def baseCycleTable : List Nat :=
  [7, 6, 0, 0, 0, 3, 5, 0, 3, 2, 2, 0, 0, 4, 6, 0] ++
  [2, 5, 0, 0, 0, 4, 6, 0, 2, 4, 0, 0, 0, 4, 7, 0] ++
  [6, 6, 0, 0, 3, 3, 5, 0, 4, 2, 2, 0, 4, 4, 6, 0] ++
  [2, 5, 0, 0, 0, 4, 6, 0, 2, 4, 0, 0, 0, 4, 7, 0] ++
  [6, 6, 0, 0, 0, 3, 5, 0, 3, 2, 2, 0, 3, 4, 6, 0] ++
  [2, 5, 0, 0, 0, 4, 6, 0, 2, 4, 0, 0, 0, 4, 7, 0] ++
  [6, 6, 0, 0, 0, 3, 5, 0, 4, 2, 2, 0, 5, 4, 6, 0] ++
  [2, 5, 0, 0, 0, 4, 6, 0, 2, 4, 0, 0, 0, 4, 7, 0] ++
  [0, 6, 0, 0, 3, 3, 3, 0, 2, 0, 2, 0, 4, 4, 4, 0] ++
  [2, 6, 0, 0, 4, 4, 4, 0, 2, 5, 2, 0, 0, 5, 0, 0] ++
  [2, 6, 2, 0, 3, 3, 3, 0, 2, 2, 2, 0, 4, 4, 4, 0] ++
  [2, 5, 0, 0, 4, 4, 4, 0, 2, 4, 2, 0, 4, 4, 4, 0] ++
  [2, 6, 0, 0, 3, 3, 5, 0, 2, 2, 2, 0, 4, 4, 6, 0] ++
  [2, 5, 0, 0, 0, 4, 6, 0, 2, 4, 0, 0, 0, 4, 7, 0] ++
  [2, 6, 0, 0, 3, 3, 5, 0, 2, 2, 2, 0, 4, 4, 6, 0] ++
  [2, 5, 0, 0, 0, 4, 6, 0, 2, 4, 0, 0, 0, 4, 7, 0]

/-- The base cycle count of an opcode byte (30_encoding.md R84). -/
def baseCycles (op : Byte) : Nat := baseCycleTable.getD op.toNat 0

end Sys2Proof
end

