-- ==== Sys2Proof/Config.lean ====
section
/-! DEFINITION. What one machine fixes and no step changes: the parameters of 00_scope.md R7, with
their defaults, and the one free value, the master palette. -/

namespace Sys2Proof

/-- `BRK_RETURN_OFFSET`, which is 1 or 2 (00_scope.md R7; decision D7). -/
inductive BrkOffset where
  | one | two
  deriving DecidableEq, Repr

/-- `PPUDATA_READ_MODE` (00_scope.md R7; decision D31). -/
inductive PpuDataMode where
  | direct | buffered
  deriving DecidableEq, Repr

/-- The parameters the machine reads while it runs (00_scope.md R7). `EXEC_SET` is held as the mapped
bytes it leaves out, and `CYCLES` as the entries that differ from the table of 30_encoding.md R84, so
that the default of each is the empty list (DESIGN CHOICE, safe: log 5). -/
structure Params where
  /-- The mapped opcode bytes that are NOT in `EXEC_SET` (R7, R82). -/
  unimplemented : List Byte
  /-- Opcode byte and base cycle count, for the entries of `CYCLES` that differ from R84. -/
  cycleOverrides : List (Byte × Nat)
  brkReturnOffset : BrkOffset
  jmpIndPageWrap : Bool
  statusReadClears : Bool
  ppuDataMode : PpuDataMode
  deriving DecidableEq, Repr

/-- The defaults of 00_scope.md R7. -/
def Params.default : Params where
  unimplemented := []
  cycleOverrides := []
  brkReturnOffset := .two
  jmpIndPageWrap := true
  statusReadClears := true
  ppuDataMode := .direct

/-- `CYCLES` gives a count from 1 to 7 (00_scope.md R7). -/
abbrev Params.Legal (ps : Params) : Prop := ∀ c ∈ ps.cycleOverrides, 1 ≤ c.2 ∧ c.2 ≤ 7

/-- A colour the host presents. The spec says only "RGB colour" (00_scope.md R7): that each channel is
one byte is a DESIGN CHOICE, safe, log 12. -/
structure Rgb where
  red : Byte
  green : Byte
  blue : Byte
  deriving DecidableEq, Repr, Inhabited

/-- `MASTER_PALETTE`, the colour of a 6-bit index: OPEN (00_scope.md R7, decision D38), so a free
value with no body. No step reads it; only the host's presentation does (log 12). -/
opaque Config.masterPalette : Colour → Rgb

end Sys2Proof
end

