-- ==== Sys2Proof/Machine/State.lean ====
section
/-! DEFINITION. The state of the machine, every item of 10_state.md as plain data, its value at reset
(70_reset_and_hazards.md R205), and the reasons a step can stop. -/

namespace Sys2Proof.Machine

/-- A memory: the cells whose byte is not $00, in rising order of address. What an unlisted address
reads as is `Memory.blank`; the canonical form is `Memory.wf`. -/
abbrev Memory := List Host.Cell

/-- Sparse cells of any type, held as a `Memory` is. -/
abbrev Cells (α : Type) := List (Nat × α)

/-- What an address that nothing has written reads as: $00. `MEM_INIT` is OPEN (decision D15):
DESIGN CHOICE, unsafe, log 2. -/
def Memory.blank : Byte := 0

/-- The eight buttons of the controller, in the order of 10_state.md R32. -/
structure Buttons where
  a : Bool
  b : Bool
  select : Bool
  start : Bool
  up : Bool
  down : Bool
  left : Bool
  right : Bool
  deriving DecidableEq, Repr

/-- The I/O stub behind $4016 (10_state.md R32). -/
structure Ctrl where
  strobe : Bool
  index : Nat
  buttons : Buttons
  deriving DecidableEq, Repr

/-- A raw cartridge image: how many bytes it has, and those that are not $00 (10_state.md R33;
the representation is log 11). -/
structure Image where
  length : Nat
  bytes : Memory
  deriving DecidableEq, Repr

/-- The cartridge store (10_state.md R33). -/
structure Cart where
  present : Bool
  image : Image
  prgBanks : Byte
  chrBanks : Byte
  mirrorFlag : Bool
  battery : Bool
  trainer : Bool
  mapper : Byte
  sram : Memory
  chrRam : Memory
  deriving DecidableEq, Repr

/-- The CPU registers (10_state.md R13). -/
structure Cpu where
  a : Byte
  x : Byte
  y : Byte
  s : Byte
  pc : Word
  p : Byte
  deriving DecidableEq, Repr

/-- The eight PPU ports, port r being $2000 + r (60_exceptions.md R183 to R190). -/
inductive Port where
  | ctrl | mask | status | oamAddr | oamData | scroll | addr | data
  deriving DecidableEq, Repr

/-- `portLatch[r]` for r in 0, 1, 3, 5, 6 (10_state.md R37). -/
structure PortLatches where
  ctrl : Byte
  mask : Byte
  oamAddr : Byte
  scroll : Byte
  addr : Byte
  deriving DecidableEq, Repr

/-- The PPU: registers (R34 to R40), memories (R41), render state (R42 to R45) and NMI guard (R46)
of 10_state.md. -/
structure Ppu where
  ctrl : Byte
  mask : Byte
  vbl : Bool
  s0 : Bool
  ovf : Bool
  latch : PortLatches
  lastWrite : Byte
  oamAddr : Byte
  oam : Memory
  scrollX : Byte
  scrollY : Byte
  scrollLatch : Bool
  vaddr : VAddr
  addrHi : Byte
  addrLatch : Bool
  readBuf : Byte
  /-- `CIRAM[t][i]` at key 1024 t + i. -/
  ciram : Memory
  palBd : Byte
  /-- `PAL[g][k]`, k from 1 to 3, at key 4 g + k. -/
  pal : Memory
  scanline : Nat
  dot : Nat
  ntByte : Byte
  atByte : Byte
  ptLow : Byte
  ptHigh : Byte
  selCount : Nat
  sel : Vector (Fin 64) 8
  /-- Bit x is `bgOpaque[x]`. -/
  bgOpaque : BitVec 256
  /-- Bit x is `sprClaimed[x]`. -/
  sprClaimed : BitVec 256
  /-- `FB[s][x]` at key 256 s + x. -/
  fb : Cells Colour
  /-- `FRAME[s][x]` at key 256 s + x. -/
  frame : Cells Colour
  frameReady : Bool
  nmiGuard : Bool
  deriving DecidableEq, Repr

/-- The cause of a halt with what it records, the opcode byte and pc0 (60_exceptions.md R164). -/
inductive HaltCause where
  | invalidOpcode (op : Byte) (pc0 : Word)
  | unimplemented (op : Byte) (pc0 : Word)
  deriving DecidableEq, Repr

/-- The whole machine (10_state.md). `params` is the model's own field: the parameters of
00_scope.md R7, which no step writes (log 4). `stopSignal` is the signal the core emits at a halt,
kept with its cause (60_exceptions.md R165; log 6). -/
structure State where
  cpu : Cpu
  wram : Memory
  ctrl : Ctrl
  cart : Cart
  ppu : Ppu
  halted : Bool
  stopSignal : Option HaltCause
  nmiPending : Bool
  running : Bool
  params : Params
  deriving DecidableEq, Repr

/-- Why a step ends in a fault. -/
inductive Fault where
  /-- Raised by `step` on a core that has halted: no further step runs and nothing clears `halted`
  (10_state.md R30, 60_exceptions.md R165). Safe: the spec gives this state no successor. -/
  | coreHalted
  /-- Raised by `step` when the host has cleared `running`: the run loop has exited (60_exceptions.md
  R169; log 7). Safe: the spec gives this state no successor until the host sets it again. -/
  | notRunning
  deriving DecidableEq, Repr

/-- Why a step is refused. -/
inductive Refusal where
  /-- Raised by an arm of `exec` for an instruction that has no meaning yet; no arm does so now.
  Safe: the model stops where the hardware goes on. -/
  | notModelled (mnemonic : String)
  deriving DecidableEq, Repr

/-- The outcome of an instruction or of a step. -/
abbrev Result := Host.Outcome State Fault Refusal

/-- No button held (70_reset_and_hazards.md R205). -/
def Buttons.released : Buttons := ⟨false, false, false, false, false, false, false, false⟩

/-- The cartridge-less store: `cartPresent` and the five header fields of the reset table are 0
(20_memory.md R61; 70_reset_and_hazards.md R205). That table names neither `mapper` nor IMAGE: 0 and no
bytes are the model's (DESIGN CHOICE, unsafe, log 19). -/
def Cart.absent : Cart where
  present := false
  image := ⟨0, []⟩
  prgBanks := 0
  chrBanks := 0
  mirrorFlag := false
  battery := false
  trainer := false
  mapper := 0
  sram := []
  chrRam := []

/-- The PPU at power-up (70_reset_and_hazards.md R205); its memories are `MEM_INIT`, here blank
(log 2). -/
def Ppu.reset : Ppu where
  ctrl := 0
  mask := 0
  vbl := false
  s0 := false
  ovf := false
  latch := ⟨0, 0, 0, 0, 0⟩
  lastWrite := 0
  oamAddr := 0
  oam := []
  scrollX := 0
  scrollY := 0
  scrollLatch := false
  vaddr := 0
  addrHi := 0
  addrLatch := false
  readBuf := 0
  ciram := []
  palBd := 0
  pal := []
  scanline := 0
  dot := 0
  ntByte := 0
  atByte := 0
  ptLow := 0
  ptHigh := 0
  selCount := 0
  sel := Vector.replicate 8 0
  bgOpaque := 0
  sprClaimed := 0
  fb := []
  frame := []
  frameReady := false
  nmiGuard := false

/-- The machine right after power-up with no cartridge (70_reset_and_hazards.md R204, R205): S = $FD,
P = $24, PC = Read16($FFFC) = $0000. A, X and Y are `CPU_INIT`, OPEN, here $00 (DESIGN CHOICE,
unsafe, log 1). How a program comes to run is log 3. -/
def State.reset : State where
  cpu := ⟨0, 0, 0, 0xFD, 0x0000, 0x24⟩
  wram := []
  ctrl := ⟨false, 0, Buttons.released⟩
  cart := Cart.absent
  ppu := Ppu.reset
  halted := false
  stopSignal := none
  nmiPending := false
  running := true
  params := Params.default

end Sys2Proof.Machine
end

