-- ==== Sys2Proof/Machine/Memory.lean ====
section
/-! DEFINITION. Sparse cells in one canonical form: reading, writing, the form itself, and the
cartridge image as such a memory. -/

namespace Sys2Proof.Machine

/-- The value at key `a`; `d` is what an unlisted key reads as. -/
def Cells.read {α : Type} (d : α) : Cells α → Nat → α
  | [], _ => d
  | c :: m, a => if c.1 = a then c.2 else Cells.read d m a

/-- The cells without key `a`. -/
def Cells.erase {α : Type} (m : Cells α) (a : Nat) : Cells α := m.filter fun c => c.1 != a

/-- The cells with `(a, v)` before the first key above `a`. -/
def Cells.insert {α : Type} : Cells α → Nat → α → Cells α
  | [], a, v => [(a, v)]
  | c :: m, a, v => if a < c.1 then (a, v) :: c :: m else c :: Cells.insert m a v

/-- The cells with `v` at key `a`: writing what an unlisted key reads as removes the entry. -/
def Cells.write {α : Type} [DecidableEq α] (d : α) (m : Cells α) (a : Nat) (v : α) : Cells α :=
  if v = d then Cells.erase m a else Cells.insert (Cells.erase m a) a v

/-- The canonical form: keys strictly rising, and no entry equal to what an unlisted key reads as. -/
abbrev Cells.Canonical {α : Type} (d : α) (m : Cells α) : Prop :=
  m.Pairwise (fun c c' => c.1 < c'.1) ∧ ∀ c ∈ m, c.2 ≠ d

/-- Every key lies below `n`. -/
abbrev Cells.Below {α : Type} (n : Nat) (m : Cells α) : Prop := ∀ c ∈ m, c.1 < n

/-- The byte at an address. -/
def Memory.read (m : Memory) (a : Nat) : Byte := Cells.read Memory.blank m a

/-- The memory with `v` at `a`. -/
def Memory.write (m : Memory) (a : Nat) (v : Byte) : Memory := Cells.write Memory.blank m a v

/-- A memory of `n` bytes is in its canonical form. -/
abbrev Memory.wf (n : Nat) (m : Memory) : Prop := Cells.Canonical Memory.blank m ∧ Cells.Below n m

/-- The memory of `n` bytes that a list of cells describes, a later cell winning over an earlier one. -/
def Memory.ofCells (n : Nat) (cells : List Host.Cell) : Memory :=
  cells.foldl (fun m c => if c.1 < n then m.write c.1 c.2 else m) []

/-- The image a list of cells describes: `n` bytes, those not listed $00. -/
def Image.ofCells (n : Nat) (cells : List Host.Cell) : Image := ⟨n, Memory.ofCells n cells⟩

/-- The image a byte list is (00_scope.md R7, `CART_IMAGE`). -/
def Image.ofBytes (bs : List Byte) : Image :=
  Image.ofCells bs.length (bs.zipIdx.map fun c => (c.2, c.1))

/-- `IMAGE[i]`, and $00 past the end (20_memory.md R60, R66). -/
def Image.get (im : Image) (i : Nat) : Byte := if i < im.length then im.bytes.read i else 0

end Sys2Proof.Machine
end

