-- ==== Sys2Proof/Machine/Cartridge.lean ====
section
/-! DEFINITION. The cartridge: header decode at insertion and the fixed mapper 0 (20_memory.md R59 to
R61, R66, R67). -/

namespace Sys2Proof.Machine

/-- Cartridge insertion. A missing image, or one shorter than 16 bytes, leaves the cartridge-less
store. `sram` and `chrRam` are the initial contents of the two RAMs; CHR RAM is there only when the
image has no CHR bank (20_memory.md R59; 10_state.md R33; log 14). The spec does not say what IMAGE
holds for the short image: its bytes are dropped (DESIGN CHOICE, unsafe, log 19). -/
def insertCartridge (image : Option Image) (sram chrRam : Memory) : Cart :=
  match image with
  | none => { Cart.absent with sram := sram, chrRam := chrRam }
  | some im =>
    if im.length < 16 then { Cart.absent with sram := sram, chrRam := chrRam }
    else
      { present := true
        image := im
        prgBanks := im.get 4
        chrBanks := im.get 5
        mirrorFlag := (im.get 6).getLsbD 0
        battery := (im.get 6).getLsbD 1
        trainer := (im.get 6).getLsbD 2
        mapper := (im.get 7 &&& 0xF0) ||| (im.get 6 >>> 4)
        sram := sram
        chrRam := if im.get 5 = 0 then chrRam else [] }

/-- The image offset of the PRG data (20_memory.md R59). -/
def Cart.prgStart (c : Cart) : Nat := 16 + if c.trainer then 512 else 0

/-- The image offset of the CHR data (20_memory.md R59). -/
def Cart.chrStart (c : Cart) : Nat := c.prgStart + 16384 * c.prgBanks.toNat

/-- The offset into the PRG data of an address in $8000..$FFFF; one bank is mirrored (20_memory.md
R60). -/
def Cart.prgOffset (c : Cart) (a : Word) : Nat :=
  if c.prgBanks = 1 then (a.toNat - 0x8000) % 0x4000 else a.toNat - 0x8000

/-- `PrgRead` (20_memory.md R60). -/
def Cart.prgRead (c : Cart) (a : Word) : Byte :=
  if !c.present then 0
  else if c.prgOffset a ≥ 16384 * c.prgBanks.toNat then 0
  else c.image.get (c.prgStart + c.prgOffset a)

/-- `ChrRead`, `a` in $0000..$1FFF (20_memory.md R66). -/
def Cart.chrRead (c : Cart) (a : Nat) : Byte :=
  if !c.present then 0
  else if c.chrBanks = 0 then c.chrRam.read a
  else c.image.get (c.chrStart + a)

/-- `ChrWrite`: dropped unless the cartridge has CHR RAM (20_memory.md R66). -/
def Cart.chrWrite (c : Cart) (a : Nat) (v : Byte) : Cart :=
  if c.present ∧ c.chrBanks = 0 then { c with chrRam := c.chrRam.write a v } else c

/-- `NtPhys`: the physical nametable of a logical one (20_memory.md R67). -/
def Cart.ntPhys (c : Cart) (t : Nat) : Nat := if c.mirrorFlag then t % 2 else t / 2

/-- A read of save RAM, `i` being the offset into it (20_memory.md R53, R58). -/
def Cart.sramRead (c : Cart) (i : Nat) : Byte := if c.present then c.sram.read i else 0

/-- A write of save RAM (20_memory.md R54, R58). -/
def Cart.sramWrite (c : Cart) (i : Nat) (v : Byte) : Cart :=
  if c.present then { c with sram := c.sram.write i v } else c

end Sys2Proof.Machine
end

