-- ==== Sys2Proof/Machine/Flags.lean ====
section
/-! DEFINITION. The status byte P and every flag computation (10_state.md R20 to R28,
42_arithmetic_logic.md, 43_shift_rotate.md). -/

namespace Sys2Proof.Machine

/-- `v` with bit `i` made `b`. -/
def setBit {n : Nat} (v : BitVec n) (i : Nat) (b : Bool) : BitVec n :=
  if b then v ||| BitVec.twoPow n i else v &&& ~~~BitVec.twoPow n i

/-- The bits of P, `N V U B D I Z C` from bit 7 down (10_state.md R20). -/
inductive Flag where
  | c | z | i | d | b | u | v | n
  deriving DecidableEq, Repr

/-- The bit of P a flag is (10_state.md R20). -/
def Flag.bit : Flag → Nat
  | .c => 0
  | .z => 1
  | .i => 2
  | .d => 3
  | .b => 4
  | .u => 5
  | .v => 6
  | .n => 7

/-- `P.F`. -/
def getFlag (p : Byte) (f : Flag) : Bool := p.getLsbD f.bit

/-- `P.F <- b`. -/
def setFlag (p : Byte) (f : Flag) (b : Bool) : Byte := setBit p f.bit b

/-- `SetZN(v)` (00_scope.md R9). -/
def setZN (p v : Byte) : Byte := setFlag (setFlag p .z (v == 0)) .n (v.getLsbD 7)

/-- ADC-core on `a`, `m` and the carry of `p`: the result and the new P. The sum is exact, 0..511, and
narrowed at the end; D is not read (42_arithmetic_logic.md R117, R119). -/
def adc (p a m : Byte) : Byte × Byte :=
  let sum := a.toNat + m.toNat + (getFlag p .c).toNat
  let r : Byte := BitVec.ofNat 8 sum
  let overflow := ((a ^^^ r) &&& (m ^^^ r) &&& 0x80) != 0
  (r, setZN (setFlag (setFlag p .c (decide (sum > 255))) .v overflow) r)

/-- SBC is ADC of the complemented operand (42_arithmetic_logic.md R120). -/
def sbc (p a m : Byte) : Byte × Byte := adc p a (m ^^^ 0xFF)

/-- The new P of a compare of `l` with `m`; V stays (42_arithmetic_logic.md R125 to R127). -/
def compare (p l m : Byte) : Byte :=
  setFlag (setFlag (setFlag p .c (decide (m.toNat ≤ l.toNat))) .z (l == m)) .n ((l - m).getLsbD 7)

/-- The new P of BIT (42_arithmetic_logic.md R124). -/
def bitTest (p a m : Byte) : Byte :=
  setFlag (setFlag (setFlag p .z (a &&& m == 0)) .n (m.getLsbD 7)) .v (m.getLsbD 6)

/-- ASL of `v`: the result, and P with the bit shifted out in C (43_shift_rotate.md R134). -/
def asl (p v : Byte) : Byte × Byte := (v <<< 1, setFlag p .c (v.getLsbD 7))

/-- LSR of `v` (43_shift_rotate.md R135). -/
def lsr (p v : Byte) : Byte × Byte := (v >>> 1, setFlag p .c (v.getLsbD 0))

/-- ROL of `v`: the old carry goes into bit 0 (43_shift_rotate.md R136). -/
def rol (p v : Byte) : Byte × Byte :=
  (setBit (v <<< 1) 0 (getFlag p .c), setFlag p .c (v.getLsbD 7))

/-- ROR of `v`: the old carry goes into bit 7 (43_shift_rotate.md R137). -/
def ror (p v : Byte) : Byte × Byte :=
  (setBit (v >>> 1) 7 (getFlag p .c), setFlag p .c (v.getLsbD 0))

/-- INC of `v`: C and V stay (42_arithmetic_logic.md R128). -/
def inc (p v : Byte) : Byte × Byte := (v + 1, p)

/-- DEC of `v`: C and V stay (42_arithmetic_logic.md R129). -/
def dec (p v : Byte) : Byte × Byte := (v - 1, p)

/-- The copy of P that PHP and BRK push: B and U forced to 1 (10_state.md R27). -/
def pushedByProgram (p : Byte) : Byte := p ||| 0x30

/-- The copy of P that NMI entry pushes: B = 0, U = 1 (10_state.md R27, 60_exceptions.md R173). -/
def pushedByNmi (p : Byte) : Byte := (p &&& ~~~0x10) ||| 0x20

end Sys2Proof.Machine
end

