-- ==== Sys2Proof/Machine/PpuBus.lean ====
section
/-! DEFINITION. The PPU's 14-bit address space (20_memory.md R65 to R68) and the reads of its eight
ports (60_exceptions.md R181 to R190). A port read is split into the byte it returns (`portPeek`) and
the change it makes (`portTouch`). -/

namespace Sys2Proof.Machine

/-- The key in CIRAM of a nametable address in $2000..$3EFF (20_memory.md R65, R67). -/
def ciramKey (c : Cart) (a : Nat) : Nat := 1024 * c.ntPhys ((a - 0x2000) / 0x400 % 4) + a % 0x400

/-- `PalRead`, `q` in $00..$1F (20_memory.md R68). -/
def Ppu.palRead (u : Ppu) (q : Nat) : Byte := if q % 4 = 0 then u.palBd else u.pal.read q

/-- `PalWrite` (20_memory.md R68). -/
def Ppu.palWrite (u : Ppu) (q : Nat) (v : Byte) : Ppu :=
  if q % 4 = 0 then { u with palBd := v } else { u with pal := u.pal.write q v }

/-- `PpuRead` (20_memory.md R65). -/
def Ppu.read (c : Cart) (u : Ppu) (addr : Nat) : Byte :=
  let a := addr % 0x4000
  if a ≤ 0x1FFF then c.chrRead a
  else if a ≤ 0x3EFF then u.ciram.read (ciramKey c a)
  else u.palRead (a % 0x20)

/-- `PpuWrite`, the part that reaches the cartridge (20_memory.md R65, R66). -/
def Ppu.writeCart (c : Cart) (addr : Nat) (v : Byte) : Cart :=
  let a := addr % 0x4000
  if a ≤ 0x1FFF then c.chrWrite a v else c

/-- `PpuWrite`, the part that reaches the PPU's own memories (20_memory.md R65, R67, R68). -/
def Ppu.writeOwn (c : Cart) (u : Ppu) (addr : Nat) (v : Byte) : Ppu :=
  let a := addr % 0x4000
  if a ≤ 0x1FFF then u
  else if a ≤ 0x3EFF then { u with ciram := u.ciram.write (ciramKey c a) v }
  else u.palWrite (a % 0x20) v

/-- `inc` of PPUDATA (60_exceptions.md R190). -/
def Ppu.increment (u : Ppu) : VAddr := if u.ctrl.getLsbD 2 then 32 else 1

/-- The byte a PPUSTATUS read returns (10_state.md R36, 60_exceptions.md R185). -/
def Ppu.status (u : Ppu) : Byte :=
  setBit (setBit (setBit (u.lastWrite &&& 0x1F) 7 u.vbl) 6 u.s0) 5 u.ovf

/-- The byte a PPUDATA read returns (60_exceptions.md R190). -/
def Ppu.dataPeek (ps : Params) (c : Cart) (u : Ppu) : Byte :=
  match ps.ppuDataMode with
  | .direct => u.read c u.vaddr.toNat
  | .buffered => if u.vaddr.toNat ≥ 0x3F00 then u.read c u.vaddr.toNat else u.readBuf

/-- The read buffer after a PPUDATA read (60_exceptions.md R190). -/
def Ppu.bufferAfter (ps : Params) (c : Cart) (u : Ppu) : Byte :=
  match ps.ppuDataMode with
  | .direct => u.readBuf
  | .buffered =>
    if u.vaddr.toNat ≥ 0x3F00 then u.read c (u.vaddr &&& 0x2FFF).toNat else u.read c u.vaddr.toNat

/-- The byte a port read returns (60_exceptions.md R181). -/
def Ppu.portPeek (ps : Params) (c : Cart) (u : Ppu) : Port → Byte
  | .ctrl => u.latch.ctrl
  | .mask => u.latch.mask
  | .status => u.status
  | .oamAddr => u.latch.oamAddr
  | .oamData => u.oam.read u.oamAddr.toNat
  | .scroll => u.latch.scroll
  | .addr => u.latch.addr
  | .data => u.dataPeek ps c

/-- What a port read changes: only ports 2 and 7 have a side effect (20_memory.md R64,
60_exceptions.md R185, R190). -/
def Ppu.portTouch (ps : Params) (c : Cart) (u : Ppu) : Port → Ppu
  | .status =>
    if ps.statusReadClears then { u with vbl := false, scrollLatch := false, addrLatch := false }
    else u
  | .data => { u with readBuf := u.bufferAfter ps c, vaddr := u.vaddr + u.increment }
  | .ctrl | .mask | .oamAddr | .oamData | .scroll | .addr => u

/-- `OamDataWrite` (60_exceptions.md R187). -/
def Ppu.oamDataWrite (u : Ppu) (v : Byte) : Ppu :=
  { u with oam := u.oam.write u.oamAddr.toNat v, oamAddr := u.oamAddr + 1 }

/-- `ScrollWrite` (60_exceptions.md R188). -/
def Ppu.scrollWrite (u : Ppu) (v : Byte) : Ppu :=
  if u.scrollLatch then { u with scrollY := BitVec.ofNat 8 (v.toNat % 240), scrollLatch := false }
  else { u with scrollX := v, scrollLatch := true }

/-- `AddrWrite` (60_exceptions.md R189). -/
def Ppu.addrWrite (u : Ppu) (v : Byte) : Ppu :=
  if u.addrLatch then { u with vaddr := (u.addrHi ++ v : BitVec 16).setWidth 14, addrLatch := false }
  else { u with addrHi := v, addrLatch := true }

/-- The PPU's side of `PpuPortWrite` (60_exceptions.md R182): `lastWrite`, the latch of a write-only
port, then the port's own effect. -/
def Ppu.portWrite (c : Cart) (u : Ppu) (r : Port) (v : Byte) : Ppu :=
  let u := { u with lastWrite := v }
  match r with
  | .ctrl => { u with latch := { u.latch with ctrl := v }, ctrl := v }
  | .mask => { u with latch := { u.latch with mask := v }, mask := v }
  | .status => u
  | .oamAddr => { u with latch := { u.latch with oamAddr := v }, oamAddr := v }
  | .oamData => u.oamDataWrite v
  | .scroll => Ppu.scrollWrite { u with latch := { u.latch with scroll := v } } v
  | .addr => Ppu.addrWrite { u with latch := { u.latch with addr := v } } v
  | .data => { u.writeOwn c u.vaddr.toNat v with vaddr := u.vaddr + u.increment }

/-- The cartridge's side of `PpuPortWrite`: only a PPUDATA write to CHR RAM reaches it
(60_exceptions.md R190, 20_memory.md R66). -/
def Ppu.portWriteCart (c : Cart) (u : Ppu) (r : Port) (v : Byte) : Cart :=
  match r with
  | .data => Ppu.writeCart c u.vaddr.toNat v
  | .ctrl | .mask | .status | .oamAddr | .oamData | .scroll | .addr => c

end Sys2Proof.Machine
end

