-- ==== Sys2Proof/Machine/Ops.lean ====
section
/-! DEFINITION. The named operations over registers and the CPU bus: the register updates, the bus
decoder (20_memory.md R53, R54), OAM DMA and the controller port, the stack, interrupt entry and the
return from it. A bus read is split into the byte it returns (`peek`) and the state it leaves
(`touch`); `MemRead(a)` is both. -/

namespace Sys2Proof.Machine

/-! ### Registers -/

/-- `A <- v`. -/
def State.setA (s : State) (v : Byte) : State := { s with cpu := { s.cpu with a := v } }

/-- `X <- v`. -/
def State.setX (s : State) (v : Byte) : State := { s with cpu := { s.cpu with x := v } }

/-- `Y <- v`. -/
def State.setY (s : State) (v : Byte) : State := { s with cpu := { s.cpu with y := v } }

/-- `S <- v`. -/
def State.setS (s : State) (v : Byte) : State := { s with cpu := { s.cpu with s := v } }

/-- `PC <- w`. -/
def State.setPc (s : State) (w : Word) : State := { s with cpu := { s.cpu with pc := w } }

/-- `P <- v`. -/
def State.setP (s : State) (v : Byte) : State := { s with cpu := { s.cpu with p := v } }

/-- `P.F <- b`. -/
def State.putFlag (s : State) (f : Flag) (b : Bool) : State := s.setP (setFlag s.cpu.p f b)

/-- `P.F`. -/
def State.flag (s : State) (f : Flag) : Bool := getFlag s.cpu.p f

/-- `SetZN(v)` (00_scope.md R9, 10_state.md R28). -/
def State.setZN (s : State) (v : Byte) : State := s.setP (Machine.setZN s.cpu.p v)

/-! ### The controller port, $4016 (60_exceptions.md R192) -/

/-- `BUTTONS[i]` (10_state.md R32). -/
def Buttons.get (b : Buttons) (i : Nat) : Bool :=
  [b.a, b.b, b.select, b.start, b.up, b.down, b.left, b.right].getD i false

/-- A bit as a byte. -/
def byteOfBool (b : Bool) : Byte := if b then 1 else 0

/-- The byte `CtrlRead` returns. -/
def Ctrl.peek (c : Ctrl) : Byte :=
  if c.strobe then byteOfBool (c.buttons.get 0)
  else if c.index < 8 then byteOfBool (c.buttons.get c.index)
  else 1

/-- The controller after `CtrlRead`. -/
def Ctrl.touch (c : Ctrl) : Ctrl :=
  if c.strobe then c else if c.index < 8 then { c with index := c.index + 1 } else c

/-- `CtrlWrite`. -/
def Ctrl.write (c : Ctrl) (v : Byte) : Ctrl :=
  { c with strobe := v.getLsbD 0, index := if v.getLsbD 0 then 0 else c.index }

/-! ### The bus decoder -/

/-- The port an address in $2000..$3FFF selects, `a & 7` (20_memory.md R56). -/
def portOf (a : Word) : Port :=
  match a.toNat % 8 with
  | 0 => .ctrl
  | 1 => .mask
  | 2 => .status
  | 3 => .oamAddr
  | 4 => .oamData
  | 5 => .scroll
  | 6 => .addr
  | _ => .data

/-- The byte `MemRead(a)` returns (20_memory.md R53). -/
def State.peek (s : State) (a : Word) : Byte :=
  if a.toNat ≤ 0x1FFF then s.wram.read (a.toNat % 0x800)
  else if a.toNat ≤ 0x3FFF then s.ppu.portPeek s.params s.cart (portOf a)
  else if a.toNat ≤ 0x4017 then if a.toNat = 0x4016 then s.ctrl.peek else 0
  else if a.toNat ≤ 0x5FFF then 0
  else if a.toNat ≤ 0x7FFF then s.cart.sramRead (a.toNat - 0x6000)
  else s.cart.prgRead a

/-- The state `MemRead(a)` leaves (20_memory.md R53, R64). -/
def State.touch (s : State) (a : Word) : State :=
  if a.toNat ≤ 0x1FFF then s
  else if a.toNat ≤ 0x3FFF then { s with ppu := s.ppu.portTouch s.params s.cart (portOf a) }
  else if a.toNat = 0x4016 then { s with ctrl := s.ctrl.touch }
  else s

/-- `Read16(a)` where neither byte has a read side effect, as in program ROM: the low byte at `a`, the
high byte at a + 1 modulo 65536 (00_scope.md R9, 20_memory.md R48, R51; log 8). -/
def State.peek16 (s : State) (a : Word) : Word := ofHiLo (s.peek (a + 1)) (s.peek a)

/-- OAM DMA of page `v`, bytes 256 - n to 255: `OAM[(OAMADDR + i) & $FF] <- MemRead((v << 8) + i)`
(60_exceptions.md R191). -/
def State.dmaFrom (v : Byte) : Nat → State → State
  | 0, s => s
  | n + 1, s =>
    let i := 255 - n
    let a : Word := ofHiLo v (BitVec.ofNat 8 i)
    let s' := s.touch a
    let oam := s'.ppu.oam.write ((s'.ppu.oamAddr.toNat + i) % 256) (s.peek a)
    State.dmaFrom v n { s' with ppu := { s'.ppu with oam := oam } }

/-- `OamDma(v)`: 256 bytes, inside the bus write (60_exceptions.md R191). -/
def State.oamDma (s : State) (v : Byte) : State := State.dmaFrom v 256 s

/-- `PpuPortWrite(r, v)` (60_exceptions.md R182). -/
def State.portWrite (s : State) (r : Port) (v : Byte) : State :=
  { s with ppu := s.ppu.portWrite s.cart r v, cart := s.ppu.portWriteCart s.cart r v }

/-- `MemWrite(a, v)` (20_memory.md R54). -/
def State.memWrite (s : State) (a : Word) (v : Byte) : State :=
  if a.toNat ≤ 0x1FFF then { s with wram := s.wram.write (a.toNat % 0x800) v }
  else if a.toNat ≤ 0x3FFF then s.portWrite (portOf a) v
  else if a.toNat = 0x4014 then s.oamDma v
  else if a.toNat = 0x4016 then { s with ctrl := s.ctrl.write v }
  else if a.toNat ≤ 0x5FFF then s
  else if a.toNat ≤ 0x7FFF then { s with cart := s.cart.sramWrite (a.toNat - 0x6000) v }
  else s

/-! ### The stack (10_state.md R18) -/

/-- The address in the stack page of an 8-bit offset: $0100 + zext_16(o). -/
def stackAddr (o : Byte) : Word := 0x0100 + o.setWidth 16

/-- `Push(v)`. -/
def State.push (s : State) (v : Byte) : State :=
  let s' := s.memWrite (stackAddr s.cpu.s) v
  s'.setS (s'.cpu.s - 1)

/-- Push a 16-bit value, high byte first. -/
def State.push16 (s : State) (w : Word) : State := (s.push (hiByte w)).push (loByte w)

/-- The byte `Pull()` returns. A read of the stack page has no side effect (20_memory.md R64; log 8). -/
def State.pulled (s : State) : Byte := s.peek (stackAddr (s.cpu.s + 1))

/-- The state after `Pull()`. -/
def State.pull (s : State) : State := s.setS (s.cpu.s + 1)

/-- The 16-bit value two pulls return, low byte first. -/
def State.pulled16 (s : State) : Word := ofHiLo s.pull.pulled s.pulled

/-- The state after two pulls. -/
def State.pull16 (s : State) : State := s.pull.pull

/-! ### Interrupts -/

/-- The NMI vector (20_memory.md R63). -/
def nmiVector : Word := 0xFFFA

/-- The reset vector (20_memory.md R63). -/
def resetVector : Word := 0xFFFC

/-- The IRQ and BRK vector (20_memory.md R63). -/
def brkVector : Word := 0xFFFE

/-- `InterruptEntry(ret, pushedP, vec)`, shared by BRK and NMI: `ret` high byte first, then the given
copy of P, then I set, then PC from the vector. D and the stored B and U stay (60_exceptions.md
R172). -/
def State.interruptEntry (s : State) (ret : Word) (pushedP : Byte) (vec : Word) : State :=
  let s1 := ((s.push16 ret).push pushedP).putFlag .i true
  s1.setPc (s1.peek16 vec)

/-- The state after RTI: all 8 bits of P, then PC with no +1 (45_stack_flag_system.md R162). -/
def State.interruptReturn (s : State) : State :=
  let s1 := s.pull.setP s.pulled
  s1.pull16.setPc s1.pulled16

/-- The state part of `NmiEntry`; its 7 cycles are `nmiCycles` (60_exceptions.md R173). -/
def State.nmiEntry (s : State) : State :=
  s.interruptEntry s.cpu.pc (pushedByNmi s.cpu.p) nmiVector

/-- The cycles of an NMI entry (60_exceptions.md R173). -/
def nmiCycles : Nat := 7

end Sys2Proof.Machine
end

