-- ==== Sys2Proof/Machine/Operands.lean ====
section
/-! DEFINITION. Every operand form: effective addresses (40_addressing.md R92 to R101) and the operand
read, store and read-modify-write (R102 to R104). -/

namespace Sys2Proof.Machine

/-- A memory operand form, with the bytes it is assembled from. -/
inductive MemForm where
  | zp (b : Byte) | zpx (b : Byte) | zpy (b : Byte)
  | abs (w : Word) | absx (w : Word) | absy (w : Word)
  | indx (b : Byte) | indy (b : Byte)
  deriving DecidableEq, Repr

/-- A source operand: an immediate byte or a memory byte (R91, R102). -/
inductive Source where
  | imm (v : Byte)
  | mem (f : MemForm)
  deriving DecidableEq, Repr

/-- The operand of a shift: A or a memory byte (R90, R104). -/
inductive RmwForm where
  | acc
  | mem (f : MemForm)
  deriving DecidableEq, Repr

/-- The zero-page address of a byte, zext_16(b). -/
def zeroPage (b : Byte) : Word := b.setWidth 16

/-- A pointer in the zero page: its two bytes wrap at 256, the low byte first (R99, R100). A read of
the zero page has no side effect (20_memory.md R64; log 8). -/
def State.zpPointer (s : State) (z : Byte) : Word :=
  ofHiLo (s.peek (zeroPage (z + 1))) (s.peek (zeroPage z))

/-- `EA(mode)` (40_addressing.md R92 to R100). Zero-page sums wrap at 256, 16-bit sums at 65536. -/
def State.ea (s : State) : MemForm → Word
  | .zp b => zeroPage b
  | .zpx b => zeroPage (b + s.cpu.x)
  | .zpy b => zeroPage (b + s.cpu.y)
  | .abs w => w
  | .absx w => w + s.cpu.x.setWidth 16
  | .absy w => w + s.cpu.y.setWidth 16
  | .indx b => s.zpPointer (b + s.cpu.x)
  | .indy b => s.zpPointer b + s.cpu.y.setWidth 16

/-- The byte `Operand(mode)` reads (R102). -/
def State.operand (s : State) : Source → Byte
  | .imm v => v
  | .mem f => s.peek (s.ea f)

/-- The state after the operand read: one bus read, no dummy reads (R102). -/
def State.afterOperand (s : State) : Source → State
  | .imm _ => s
  | .mem f => s.touch (s.ea f)

/-- `Store(mode, v)`: one bus write (R103). -/
def State.store (s : State) (f : MemForm) (v : Byte) : State := s.memWrite (s.ea f) v

/-- `RMW(mode, f)` followed by `SetZN(r)`: one read and one write. `g` takes P and the value read, and
gives the result and the P it leaves (R104). -/
def State.rmw (s : State) (g : Byte → Byte → Byte × Byte) : RmwForm → State
  | .acc =>
    let r := g s.cpu.p s.cpu.a
    ((s.setP r.2).setA r.1).setZN r.1
  | .mem f =>
    let r := g s.cpu.p (s.peek (s.ea f))
    (((s.touch (s.ea f)).setP r.2).memWrite (s.ea f) r.1).setZN r.1

/-- The address of the high byte of a JMP pointer: in the same page with `JMP_IND_PAGE_WRAP` (R98). -/
def jmpHighAddr (ps : Params) (ptr : Word) : Word :=
  if ps.jmpIndPageWrap then ofHiLo (hiByte ptr) (loByte ptr + 1) else ptr + 1

/-- The target of the indirect mode (R98). Both pointer bytes are ordinary bus reads, the low byte
first. -/
def State.indirectTarget (s : State) (ptr : Word) : Word :=
  ofHiLo ((s.touch ptr).peek (jmpHighAddr s.params ptr)) (s.peek ptr)

/-- The state after the two pointer reads of the indirect mode (R98). -/
def State.afterIndirect (s : State) (ptr : Word) : State :=
  (s.touch ptr).touch (jmpHighAddr s.params ptr)

/-- The target of a branch, PC having been advanced past it (R101). -/
def State.branchTarget (s : State) (d : Byte) : Word := s.cpu.pc + d.signExtend 16

end Sys2Proof.Machine
end

