-- ==== Sys2Proof/Machine/Arith.lean ====
section
/-! DEFINITION. Arithmetic, logic, compares, increments and decrements: one meaning per instruction,
over shared operations and the flag computations of Flags.lean (42_arithmetic_logic.md R117 to R133). -/

namespace Sys2Proof.Machine

/-- ADC: A and P from ADC-core on A, the operand and C (R119). -/
def State.addA (s : State) (m : Source) : State :=
  let r := adc s.cpu.p s.cpu.a (s.operand m)
  ((s.afterOperand m).setA r.1).setP r.2

/-- SBC: ADC-core on the complemented operand (R120). -/
def State.subA (s : State) (m : Source) : State :=
  let r := sbc s.cpu.p s.cpu.a (s.operand m)
  ((s.afterOperand m).setA r.1).setP r.2

/-- AND, ORA and EOR: A becomes `op A m`, with SetZN (R121 to R123). -/
def State.logicA (s : State) (op : Byte → Byte → Byte) (m : Source) : State :=
  let r := op s.cpu.a (s.operand m)
  ((s.afterOperand m).setA r).setZN r

/-- AND (R121). -/
def State.andA (s : State) (m : Source) : State := s.logicA (fun a b => a &&& b) m

/-- ORA (R122). -/
def State.oraA (s : State) (m : Source) : State := s.logicA (fun a b => a ||| b) m

/-- EOR (R123). -/
def State.eorA (s : State) (m : Source) : State := s.logicA (fun a b => a ^^^ b) m

/-- BIT: flags only (R124). -/
def State.testA (s : State) (f : MemForm) : State :=
  (s.afterOperand (.mem f)).setP (bitTest s.cpu.p s.cpu.a (s.operand (.mem f)))

/-- CMP, CPX and CPY with left side `l`: flags only (R125 to R127). -/
def State.compareWith (s : State) (l : Byte) (m : Source) : State :=
  (s.afterOperand m).setP (compare s.cpu.p l (s.operand m))

/-- `$69` ADC IMM (R119, R91). -/
def execAdcImm (v : Byte) (s : State) : Result := .next (s.addA (.imm v))

/-- `$65` ADC ZP (R119, R92). -/
def execAdcZp (b : Byte) (s : State) : Result := .next (s.addA (.mem (.zp b)))

/-- `$75` ADC ZPX (R119, R93). -/
def execAdcZpx (b : Byte) (s : State) : Result := .next (s.addA (.mem (.zpx b)))

/-- `$6D` ADC ABS (R119, R95). -/
def execAdcAbs (w : Word) (s : State) : Result := .next (s.addA (.mem (.abs w)))

/-- `$7D` ADC ABSX (R119, R96). -/
def execAdcAbsx (w : Word) (s : State) : Result := .next (s.addA (.mem (.absx w)))

/-- `$79` ADC ABSY (R119, R97). -/
def execAdcAbsy (w : Word) (s : State) : Result := .next (s.addA (.mem (.absy w)))

/-- `$61` ADC INDX (R119, R99). -/
def execAdcIndx (b : Byte) (s : State) : Result := .next (s.addA (.mem (.indx b)))

/-- `$71` ADC INDY (R119, R100). -/
def execAdcIndy (b : Byte) (s : State) : Result := .next (s.addA (.mem (.indy b)))

/-- `$E9` SBC IMM (R120, R91). -/
def execSbcImm (v : Byte) (s : State) : Result := .next (s.subA (.imm v))

/-- `$E5` SBC ZP (R120, R92). -/
def execSbcZp (b : Byte) (s : State) : Result := .next (s.subA (.mem (.zp b)))

/-- `$F5` SBC ZPX (R120, R93). -/
def execSbcZpx (b : Byte) (s : State) : Result := .next (s.subA (.mem (.zpx b)))

/-- `$ED` SBC ABS (R120, R95). -/
def execSbcAbs (w : Word) (s : State) : Result := .next (s.subA (.mem (.abs w)))

/-- `$FD` SBC ABSX (R120, R96). -/
def execSbcAbsx (w : Word) (s : State) : Result := .next (s.subA (.mem (.absx w)))

/-- `$F9` SBC ABSY (R120, R97). -/
def execSbcAbsy (w : Word) (s : State) : Result := .next (s.subA (.mem (.absy w)))

/-- `$E1` SBC INDX (R120, R99). -/
def execSbcIndx (b : Byte) (s : State) : Result := .next (s.subA (.mem (.indx b)))

/-- `$F1` SBC INDY (R120, R100). -/
def execSbcIndy (b : Byte) (s : State) : Result := .next (s.subA (.mem (.indy b)))

/-- `$29` AND IMM (R121, R91). -/
def execAndImm (v : Byte) (s : State) : Result := .next (s.andA (.imm v))

/-- `$25` AND ZP (R121, R92). -/
def execAndZp (b : Byte) (s : State) : Result := .next (s.andA (.mem (.zp b)))

/-- `$35` AND ZPX (R121, R93). -/
def execAndZpx (b : Byte) (s : State) : Result := .next (s.andA (.mem (.zpx b)))

/-- `$2D` AND ABS (R121, R95). -/
def execAndAbs (w : Word) (s : State) : Result := .next (s.andA (.mem (.abs w)))

/-- `$3D` AND ABSX (R121, R96). -/
def execAndAbsx (w : Word) (s : State) : Result := .next (s.andA (.mem (.absx w)))

/-- `$39` AND ABSY (R121, R97). -/
def execAndAbsy (w : Word) (s : State) : Result := .next (s.andA (.mem (.absy w)))

/-- `$21` AND INDX (R121, R99). -/
def execAndIndx (b : Byte) (s : State) : Result := .next (s.andA (.mem (.indx b)))

/-- `$31` AND INDY (R121, R100). -/
def execAndIndy (b : Byte) (s : State) : Result := .next (s.andA (.mem (.indy b)))

/-- `$09` ORA IMM (R122, R91). -/
def execOraImm (v : Byte) (s : State) : Result := .next (s.oraA (.imm v))

/-- `$05` ORA ZP (R122, R92). -/
def execOraZp (b : Byte) (s : State) : Result := .next (s.oraA (.mem (.zp b)))

/-- `$15` ORA ZPX (R122, R93). -/
def execOraZpx (b : Byte) (s : State) : Result := .next (s.oraA (.mem (.zpx b)))

/-- `$0D` ORA ABS (R122, R95). -/
def execOraAbs (w : Word) (s : State) : Result := .next (s.oraA (.mem (.abs w)))

/-- `$1D` ORA ABSX (R122, R96). -/
def execOraAbsx (w : Word) (s : State) : Result := .next (s.oraA (.mem (.absx w)))

/-- `$19` ORA ABSY (R122, R97). -/
def execOraAbsy (w : Word) (s : State) : Result := .next (s.oraA (.mem (.absy w)))

/-- `$01` ORA INDX (R122, R99). -/
def execOraIndx (b : Byte) (s : State) : Result := .next (s.oraA (.mem (.indx b)))

/-- `$11` ORA INDY (R122, R100). -/
def execOraIndy (b : Byte) (s : State) : Result := .next (s.oraA (.mem (.indy b)))

/-- `$49` EOR IMM (R123, R91). -/
def execEorImm (v : Byte) (s : State) : Result := .next (s.eorA (.imm v))

/-- `$45` EOR ZP (R123, R92). -/
def execEorZp (b : Byte) (s : State) : Result := .next (s.eorA (.mem (.zp b)))

/-- `$55` EOR ZPX (R123, R93). -/
def execEorZpx (b : Byte) (s : State) : Result := .next (s.eorA (.mem (.zpx b)))

/-- `$4D` EOR ABS (R123, R95). -/
def execEorAbs (w : Word) (s : State) : Result := .next (s.eorA (.mem (.abs w)))

/-- `$5D` EOR ABSX (R123, R96). -/
def execEorAbsx (w : Word) (s : State) : Result := .next (s.eorA (.mem (.absx w)))

/-- `$59` EOR ABSY (R123, R97). -/
def execEorAbsy (w : Word) (s : State) : Result := .next (s.eorA (.mem (.absy w)))

/-- `$41` EOR INDX (R123, R99). -/
def execEorIndx (b : Byte) (s : State) : Result := .next (s.eorA (.mem (.indx b)))

/-- `$51` EOR INDY (R123, R100). -/
def execEorIndy (b : Byte) (s : State) : Result := .next (s.eorA (.mem (.indy b)))

/-- `$24` BIT ZP (R124, R92). -/
def execBitZp (b : Byte) (s : State) : Result := .next (s.testA (.zp b))

/-- `$2C` BIT ABS (R124, R95). -/
def execBitAbs (w : Word) (s : State) : Result := .next (s.testA (.abs w))

/-- `$C9` CMP IMM (R125, R91). -/
def execCmpImm (v : Byte) (s : State) : Result := .next (s.compareWith s.cpu.a (.imm v))

/-- `$C5` CMP ZP (R125, R92). -/
def execCmpZp (b : Byte) (s : State) : Result := .next (s.compareWith s.cpu.a (.mem (.zp b)))

/-- `$D5` CMP ZPX (R125, R93). -/
def execCmpZpx (b : Byte) (s : State) : Result := .next (s.compareWith s.cpu.a (.mem (.zpx b)))

/-- `$CD` CMP ABS (R125, R95). -/
def execCmpAbs (w : Word) (s : State) : Result := .next (s.compareWith s.cpu.a (.mem (.abs w)))

/-- `$DD` CMP ABSX (R125, R96). -/
def execCmpAbsx (w : Word) (s : State) : Result := .next (s.compareWith s.cpu.a (.mem (.absx w)))

/-- `$D9` CMP ABSY (R125, R97). -/
def execCmpAbsy (w : Word) (s : State) : Result := .next (s.compareWith s.cpu.a (.mem (.absy w)))

/-- `$C1` CMP INDX (R125, R99). -/
def execCmpIndx (b : Byte) (s : State) : Result := .next (s.compareWith s.cpu.a (.mem (.indx b)))

/-- `$D1` CMP INDY (R125, R100). -/
def execCmpIndy (b : Byte) (s : State) : Result := .next (s.compareWith s.cpu.a (.mem (.indy b)))

/-- `$E0` CPX IMM (R126, R91). -/
def execCpxImm (v : Byte) (s : State) : Result := .next (s.compareWith s.cpu.x (.imm v))

/-- `$E4` CPX ZP (R126, R92). -/
def execCpxZp (b : Byte) (s : State) : Result := .next (s.compareWith s.cpu.x (.mem (.zp b)))

/-- `$EC` CPX ABS (R126, R95). -/
def execCpxAbs (w : Word) (s : State) : Result := .next (s.compareWith s.cpu.x (.mem (.abs w)))

/-- `$C0` CPY IMM (R127, R91). -/
def execCpyImm (v : Byte) (s : State) : Result := .next (s.compareWith s.cpu.y (.imm v))

/-- `$C4` CPY ZP (R127, R92). -/
def execCpyZp (b : Byte) (s : State) : Result := .next (s.compareWith s.cpu.y (.mem (.zp b)))

/-- `$CC` CPY ABS (R127, R95). -/
def execCpyAbs (w : Word) (s : State) : Result := .next (s.compareWith s.cpu.y (.mem (.abs w)))

/-- `$E6` INC ZP (R128, R92). -/
def execIncZp (b : Byte) (s : State) : Result := .next (s.rmw inc (.mem (.zp b)))

/-- `$F6` INC ZPX (R128, R93). -/
def execIncZpx (b : Byte) (s : State) : Result := .next (s.rmw inc (.mem (.zpx b)))

/-- `$EE` INC ABS (R128, R95). -/
def execIncAbs (w : Word) (s : State) : Result := .next (s.rmw inc (.mem (.abs w)))

/-- `$FE` INC ABSX (R128, R96). -/
def execIncAbsx (w : Word) (s : State) : Result := .next (s.rmw inc (.mem (.absx w)))

/-- `$C6` DEC ZP (R129, R92). -/
def execDecZp (b : Byte) (s : State) : Result := .next (s.rmw dec (.mem (.zp b)))

/-- `$D6` DEC ZPX (R129, R93). -/
def execDecZpx (b : Byte) (s : State) : Result := .next (s.rmw dec (.mem (.zpx b)))

/-- `$CE` DEC ABS (R129, R95). -/
def execDecAbs (w : Word) (s : State) : Result := .next (s.rmw dec (.mem (.abs w)))

/-- `$DE` DEC ABSX (R129, R96). -/
def execDecAbsx (w : Word) (s : State) : Result := .next (s.rmw dec (.mem (.absx w)))

/-- `$E8` INX (R130, R89). -/
def execInx (s : State) : Result := .next ((s.setX (s.cpu.x + 1)).setZN (s.cpu.x + 1))

/-- `$C8` INY (R131, R89). -/
def execIny (s : State) : Result := .next ((s.setY (s.cpu.y + 1)).setZN (s.cpu.y + 1))

/-- `$CA` DEX (R132, R89). -/
def execDex (s : State) : Result := .next ((s.setX (s.cpu.x - 1)).setZN (s.cpu.x - 1))

/-- `$88` DEY (R133, R89). -/
def execDey (s : State) : Result := .next ((s.setY (s.cpu.y - 1)).setZN (s.cpu.y - 1))

end Sys2Proof.Machine
end

