-- ==== Sys2Proof/Machine/Control.lean ====
section
/-! DEFINITION. Control transfer: one meaning per instruction (44_control_transfer.md R138 to R149).
PC has already been advanced past the instruction (40_addressing.md R88). -/

namespace Sys2Proof.Machine

/-- The common branch rule: when `taken`, PC plus the sign-extended displacement (R138). -/
def State.branch (s : State) (taken : Bool) (d : Byte) : State :=
  if taken then s.setPc (s.branchTarget d) else s

/-- `$90` BCC REL (R139, R101). -/
def execBcc (d : Byte) (s : State) : Result := .next (s.branch (!s.flag .c) d)

/-- `$B0` BCS REL (R140, R101). -/
def execBcs (d : Byte) (s : State) : Result := .next (s.branch (s.flag .c) d)

/-- `$F0` BEQ REL (R141, R101). -/
def execBeq (d : Byte) (s : State) : Result := .next (s.branch (s.flag .z) d)

/-- `$30` BMI REL (R142, R101). -/
def execBmi (d : Byte) (s : State) : Result := .next (s.branch (s.flag .n) d)

/-- `$D0` BNE REL (R143, R101). -/
def execBne (d : Byte) (s : State) : Result := .next (s.branch (!s.flag .z) d)

/-- `$10` BPL REL (R144, R101). -/
def execBpl (d : Byte) (s : State) : Result := .next (s.branch (!s.flag .n) d)

/-- `$50` BVC REL (R145, R101). -/
def execBvc (d : Byte) (s : State) : Result := .next (s.branch (!s.flag .v) d)

/-- `$70` BVS REL (R146, R101). -/
def execBvs (d : Byte) (s : State) : Result := .next (s.branch (s.flag .v) d)

/-- `$4C` JMP ABS (R147, R95). -/
def execJmpAbs (w : Word) (s : State) : Result := .next (s.setPc w)

/-- `$6C` JMP IND (R147, R98). -/
def execJmpInd (w : Word) (s : State) : Result :=
  .next ((s.afterIndirect w).setPc (s.indirectTarget w))

/-- `$20` JSR ABS (R148, R95). -/
def execJsrAbs (w : Word) (s : State) : Result := .next ((s.push16 (s.cpu.pc - 1)).setPc w)

/-- `$60` RTS (R149, R89). -/
def execRts (s : State) : Result := .next (s.pull16.setPc (s.pulled16 + 1))

end Sys2Proof.Machine
end

