-- ==== Sys2Proof/Machine/Load.lean ====
section
/-! DEFINITION. Loads, stores and transfers: one meaning per instruction, over the shared operations
`loadA`, `loadX`, `loadY` and `State.store` (41_load_store_transfer.md R105 to R116). -/

namespace Sys2Proof.Machine

/-- LDA: `v <- Operand(mode); A <- v; SetZN(v)` (R105). -/
def State.loadA (s : State) (m : Source) : State :=
  ((s.afterOperand m).setA (s.operand m)).setZN (s.operand m)

/-- LDX (R106). -/
def State.loadX (s : State) (m : Source) : State :=
  ((s.afterOperand m).setX (s.operand m)).setZN (s.operand m)

/-- LDY (R107). -/
def State.loadY (s : State) (m : Source) : State :=
  ((s.afterOperand m).setY (s.operand m)).setZN (s.operand m)

/-- `$A9` LDA IMM (R105, R91). -/
def execLdaImm (v : Byte) (s : State) : Result := .next (s.loadA (.imm v))

/-- `$A5` LDA ZP (R105, R92). -/
def execLdaZp (b : Byte) (s : State) : Result := .next (s.loadA (.mem (.zp b)))

/-- `$B5` LDA ZPX (R105, R93). -/
def execLdaZpx (b : Byte) (s : State) : Result := .next (s.loadA (.mem (.zpx b)))

/-- `$AD` LDA ABS (R105, R95). -/
def execLdaAbs (w : Word) (s : State) : Result := .next (s.loadA (.mem (.abs w)))

/-- `$BD` LDA ABSX (R105, R96). -/
def execLdaAbsx (w : Word) (s : State) : Result := .next (s.loadA (.mem (.absx w)))

/-- `$B9` LDA ABSY (R105, R97). -/
def execLdaAbsy (w : Word) (s : State) : Result := .next (s.loadA (.mem (.absy w)))

/-- `$A1` LDA INDX (R105, R99). -/
def execLdaIndx (b : Byte) (s : State) : Result := .next (s.loadA (.mem (.indx b)))

/-- `$B1` LDA INDY (R105, R100). -/
def execLdaIndy (b : Byte) (s : State) : Result := .next (s.loadA (.mem (.indy b)))

/-- `$A2` LDX IMM (R106, R91). -/
def execLdxImm (v : Byte) (s : State) : Result := .next (s.loadX (.imm v))

/-- `$A6` LDX ZP (R106, R92). -/
def execLdxZp (b : Byte) (s : State) : Result := .next (s.loadX (.mem (.zp b)))

/-- `$B6` LDX ZPY (R106, R94). -/
def execLdxZpy (b : Byte) (s : State) : Result := .next (s.loadX (.mem (.zpy b)))

/-- `$AE` LDX ABS (R106, R95). -/
def execLdxAbs (w : Word) (s : State) : Result := .next (s.loadX (.mem (.abs w)))

/-- `$BE` LDX ABSY (R106, R97). -/
def execLdxAbsy (w : Word) (s : State) : Result := .next (s.loadX (.mem (.absy w)))

/-- `$A0` LDY IMM (R107, R91). -/
def execLdyImm (v : Byte) (s : State) : Result := .next (s.loadY (.imm v))

/-- `$A4` LDY ZP (R107, R92). -/
def execLdyZp (b : Byte) (s : State) : Result := .next (s.loadY (.mem (.zp b)))

/-- `$B4` LDY ZPX (R107, R93). -/
def execLdyZpx (b : Byte) (s : State) : Result := .next (s.loadY (.mem (.zpx b)))

/-- `$AC` LDY ABS (R107, R95). -/
def execLdyAbs (w : Word) (s : State) : Result := .next (s.loadY (.mem (.abs w)))

/-- `$BC` LDY ABSX (R107, R96). -/
def execLdyAbsx (w : Word) (s : State) : Result := .next (s.loadY (.mem (.absx w)))

/-- `$85` STA ZP (R108, R92). -/
def execStaZp (b : Byte) (s : State) : Result := .next (s.store (.zp b) s.cpu.a)

/-- `$95` STA ZPX (R108, R93). -/
def execStaZpx (b : Byte) (s : State) : Result := .next (s.store (.zpx b) s.cpu.a)

/-- `$8D` STA ABS (R108, R95). -/
def execStaAbs (w : Word) (s : State) : Result := .next (s.store (.abs w) s.cpu.a)

/-- `$9D` STA ABSX (R108, R96). -/
def execStaAbsx (w : Word) (s : State) : Result := .next (s.store (.absx w) s.cpu.a)

/-- `$99` STA ABSY (R108, R97). -/
def execStaAbsy (w : Word) (s : State) : Result := .next (s.store (.absy w) s.cpu.a)

/-- `$81` STA INDX (R108, R99). -/
def execStaIndx (b : Byte) (s : State) : Result := .next (s.store (.indx b) s.cpu.a)

/-- `$91` STA INDY (R108, R100). -/
def execStaIndy (b : Byte) (s : State) : Result := .next (s.store (.indy b) s.cpu.a)

/-- `$86` STX ZP (R109, R92). -/
def execStxZp (b : Byte) (s : State) : Result := .next (s.store (.zp b) s.cpu.x)

/-- `$96` STX ZPY (R109, R94). -/
def execStxZpy (b : Byte) (s : State) : Result := .next (s.store (.zpy b) s.cpu.x)

/-- `$8E` STX ABS (R109, R95). -/
def execStxAbs (w : Word) (s : State) : Result := .next (s.store (.abs w) s.cpu.x)

/-- `$84` STY ZP (R110, R92). -/
def execStyZp (b : Byte) (s : State) : Result := .next (s.store (.zp b) s.cpu.y)

/-- `$94` STY ZPX (R110, R93). -/
def execStyZpx (b : Byte) (s : State) : Result := .next (s.store (.zpx b) s.cpu.y)

/-- `$8C` STY ABS (R110, R95). -/
def execStyAbs (w : Word) (s : State) : Result := .next (s.store (.abs w) s.cpu.y)

/-- `$AA` TAX (R111, R89). -/
def execTax (s : State) : Result := .next ((s.setX s.cpu.a).setZN s.cpu.a)

/-- `$A8` TAY (R112, R89). -/
def execTay (s : State) : Result := .next ((s.setY s.cpu.a).setZN s.cpu.a)

/-- `$8A` TXA (R113, R89). -/
def execTxa (s : State) : Result := .next ((s.setA s.cpu.x).setZN s.cpu.x)

/-- `$98` TYA (R114, R89). -/
def execTya (s : State) : Result := .next ((s.setA s.cpu.y).setZN s.cpu.y)

/-- `$BA` TSX (R115, R89). -/
def execTsx (s : State) : Result := .next ((s.setX s.cpu.s).setZN s.cpu.s)

/-- `$9A` TXS (R116, R89). -/
def execTxs (s : State) : Result := .next (s.setS s.cpu.x)

end Sys2Proof.Machine
end

