-- ==== Sys2Proof/Machine/Shift.lean ====
section
/-! DEFINITION. Shifts and rotates: one meaning per instruction, over `State.rmw` and the shift
functions of Flags.lean (43_shift_rotate.md R134 to R137). -/

namespace Sys2Proof.Machine

/-- `$0A` ASL ACC (R134, R90). -/
def execAslAcc (s : State) : Result := .next (s.rmw asl .acc)

/-- `$06` ASL ZP (R134, R92). -/
def execAslZp (b : Byte) (s : State) : Result := .next (s.rmw asl (.mem (.zp b)))

/-- `$16` ASL ZPX (R134, R93). -/
def execAslZpx (b : Byte) (s : State) : Result := .next (s.rmw asl (.mem (.zpx b)))

/-- `$0E` ASL ABS (R134, R95). -/
def execAslAbs (w : Word) (s : State) : Result := .next (s.rmw asl (.mem (.abs w)))

/-- `$1E` ASL ABSX (R134, R96). -/
def execAslAbsx (w : Word) (s : State) : Result := .next (s.rmw asl (.mem (.absx w)))

/-- `$4A` LSR ACC (R135, R90). -/
def execLsrAcc (s : State) : Result := .next (s.rmw lsr .acc)

/-- `$46` LSR ZP (R135, R92). -/
def execLsrZp (b : Byte) (s : State) : Result := .next (s.rmw lsr (.mem (.zp b)))

/-- `$56` LSR ZPX (R135, R93). -/
def execLsrZpx (b : Byte) (s : State) : Result := .next (s.rmw lsr (.mem (.zpx b)))

/-- `$4E` LSR ABS (R135, R95). -/
def execLsrAbs (w : Word) (s : State) : Result := .next (s.rmw lsr (.mem (.abs w)))

/-- `$5E` LSR ABSX (R135, R96). -/
def execLsrAbsx (w : Word) (s : State) : Result := .next (s.rmw lsr (.mem (.absx w)))

/-- `$2A` ROL ACC (R136, R90). -/
def execRolAcc (s : State) : Result := .next (s.rmw rol .acc)

/-- `$26` ROL ZP (R136, R92). -/
def execRolZp (b : Byte) (s : State) : Result := .next (s.rmw rol (.mem (.zp b)))

/-- `$36` ROL ZPX (R136, R93). -/
def execRolZpx (b : Byte) (s : State) : Result := .next (s.rmw rol (.mem (.zpx b)))

/-- `$2E` ROL ABS (R136, R95). -/
def execRolAbs (w : Word) (s : State) : Result := .next (s.rmw rol (.mem (.abs w)))

/-- `$3E` ROL ABSX (R136, R96). -/
def execRolAbsx (w : Word) (s : State) : Result := .next (s.rmw rol (.mem (.absx w)))

/-- `$6A` ROR ACC (R137, R90). -/
def execRorAcc (s : State) : Result := .next (s.rmw ror .acc)

/-- `$66` ROR ZP (R137, R92). -/
def execRorZp (b : Byte) (s : State) : Result := .next (s.rmw ror (.mem (.zp b)))

/-- `$76` ROR ZPX (R137, R93). -/
def execRorZpx (b : Byte) (s : State) : Result := .next (s.rmw ror (.mem (.zpx b)))

/-- `$6E` ROR ABS (R137, R95). -/
def execRorAbs (w : Word) (s : State) : Result := .next (s.rmw ror (.mem (.abs w)))

/-- `$7E` ROR ABSX (R137, R96). -/
def execRorAbsx (w : Word) (s : State) : Result := .next (s.rmw ror (.mem (.absx w)))

end Sys2Proof.Machine
end

