-- ==== Sys2Proof/Machine/System.lean ====
section
/-! DEFINITION. Stack, flag and system instructions: one meaning per instruction
(45_stack_flag_system.md R150 to R163). -/

namespace Sys2Proof.Machine

/-- `BRK_RETURN_OFFSET` (00_scope.md R7). -/
def brkOffset (ps : Params) : Word :=
  match ps.brkReturnOffset with
  | .one => 1
  | .two => 2

/-- `$48` PHA (R150, R89). -/
def execPha (s : State) : Result := .next (s.push s.cpu.a)

/-- `$08` PHP (R151, R89). -/
def execPhp (s : State) : Result := .next (s.push (pushedByProgram s.cpu.p))

/-- `$68` PLA (R152, R89). -/
def execPla (s : State) : Result := .next ((s.pull.setA s.pulled).setZN s.pulled)

/-- `$28` PLP (R153, R89). -/
def execPlp (s : State) : Result := .next (s.pull.setP s.pulled)

/-- `$18` CLC (R154, R89). -/
def execClc (s : State) : Result := .next (s.putFlag .c false)

/-- `$D8` CLD (R155, R89). -/
def execCld (s : State) : Result := .next (s.putFlag .d false)

/-- `$58` CLI (R156, R89). -/
def execCli (s : State) : Result := .next (s.putFlag .i false)

/-- `$B8` CLV (R157, R89). -/
def execClv (s : State) : Result := .next (s.putFlag .v false)

/-- `$38` SEC (R158, R89). -/
def execSec (s : State) : Result := .next (s.putFlag .c true)

/-- `$F8` SED (R159, R89). -/
def execSed (s : State) : Result := .next (s.putFlag .d true)

/-- `$78` SEI (R160, R89). -/
def execSei (s : State) : Result := .next (s.putFlag .i true)

/-- `$00` BRK (R161, R89). -/
def execBrk (s : State) : Result :=
  .next (s.interruptEntry (s.cpu.pc - 1 + brkOffset s.params) (pushedByProgram s.cpu.p) brkVector)

/-- `$40` RTI (R162, R89). -/
def execRti (s : State) : Result := .next s.interruptReturn

/-- `$EA` NOP (R163, R89). -/
def execNop (s : State) : Result := .next s

end Sys2Proof.Machine
end

