-- ==== Sys2Proof/Machine/Render.lean ====
section
/-! DEFINITION. The PPU's scanline/dot state machine: background fetch and composite, sprite
evaluation, fetch and composite, vblank entry and pre-render clear (60_exceptions.md R193 to R203).
The PPU only reads the cartridge (20_memory.md R69). -/

namespace Sys2Proof.Machine

/-- The colour of palette position `q`: `PalRead(q) & $3F` (60_exceptions.md R197, R199). -/
def Ppu.colour (u : Ppu) (q : Nat) : Colour := (u.palRead q).setWidth 6

/-- `FB[s][x] <- c`. -/
def Ppu.plot (u : Ppu) (s x : Nat) (c : Colour) : Ppu :=
  { u with fb := Cells.write 0 u.fb (256 * s + x) c }

/-- `FB[s][x]`. -/
def Ppu.fbAt (u : Ppu) (s x : Nat) : Colour := Cells.read 0 u.fb (256 * s + x)

/-- `FRAME[s][x]`. -/
def Ppu.frameAt (u : Ppu) (s x : Nat) : Colour := Cells.read 0 u.frame (256 * s + x)

/-- The two bits of a pixel from the two planes of a tile row, at bit `b`. -/
def pixel (hi lo : Byte) (b : Nat) : Nat := 2 * (hi.getLsbD b).toNat + (lo.getLsbD b).toNat

/-! ### Background -/

/-- The palette group of tile column `k` on line `s`: the 2x2-tile quadrant of the attribute byte
(R197). -/
def Ppu.group (u : Ppu) (s k : Nat) : Nat :=
  (u.atByte >>> (4 * (s / 16 % 2) + 2 * (k / 2 % 2))).toNat % 4

/-- Pixel `i` of tile column `k` on line `s` (R197). -/
def Ppu.bgPixel (s k : Nat) (u : Ppu) (i : Nat) : Ppu :=
  let x := 8 * k + i
  let p := if u.mask.getLsbD 3 then pixel u.ptHigh u.ptLow (7 - i) else 0
  let u1 := { u with bgOpaque := setBit u.bgOpaque x (p != 0) }
  u1.plot s x (if p = 0 then u.colour 0 else u.colour (4 * u.group s k + p))

/-- `BgComposite(s, k)` (R197). -/
def Ppu.bgComposite (u : Ppu) (s k : Nat) : Ppu := (List.range 8).foldl (Ppu.bgPixel s k) u

/-- The nametable base of PPUCTRL (R196). -/
def Ppu.ntBase (u : Ppu) : Nat := 0x2000 + 0x400 * (u.ctrl.toNat % 4)

/-- The address of the low pattern plane of the fetched tile on line `s` (R196). -/
def Ppu.ptAddr (u : Ppu) (s : Nat) : Nat :=
  0x1000 * (u.ctrl.getLsbD 4).toNat + 16 * u.ntByte.toNat + s % 8

/-- `BgFetchStep(s, d)` (R196). -/
def Ppu.bgFetchStep (c : Cart) (u : Ppu) (s d : Nat) : Ppu :=
  let k := (d - 1) / 8
  match (d - 1) % 8 with
  | 1 => { u with ntByte := u.read c (u.ntBase + 32 * (s / 8) + k) }
  | 3 => { u with atByte := u.read c (u.ntBase + 0x3C0 + 8 * (s / 32) + k / 4) }
  | 5 => { u with ptLow := u.read c (u.ptAddr s) }
  | 7 => Ppu.bgComposite { u with ptHigh := u.read c (u.ptAddr s + 8) } s k
  | _ => u

/-! ### Sprites -/

/-- Byte `j` of sprite `i` in OAM: Y, tile, attribute, X (10_state.md R38). -/
def Ppu.spriteByte (u : Ppu) (i j : Nat) : Byte := u.oam.read (4 * i + j)

/-- `row <- s - (OAM[4i] + 1)`, signed (R198, R199). -/
def Ppu.spriteRow (u : Ppu) (s i : Nat) : Int := (s : Int) - ((u.spriteByte i 0).toNat + 1)

/-- One sprite of `SpriteEval` (R198). -/
def Ppu.evalSprite (s : Nat) (u : Ppu) (i : Nat) : Ppu :=
  if 0 ≤ u.spriteRow s i ∧ u.spriteRow s i ≤ 7 then
    if u.selCount < 8 then
      { u with sel := u.sel.setIfInBounds u.selCount (Fin.ofNat 64 i), selCount := u.selCount + 1 }
    else { u with ovf := true }
  else u

/-- `SpriteEval(s)` (R198). -/
def Ppu.spriteEval (u : Ppu) (s : Nat) : Ppu :=
  let u1 := { u with selCount := 0, sprClaimed := 0 }
  if u.mask.getLsbD 4 then (List.range 64).foldl (Ppu.evalSprite s) u1 else u1

/-- `sel[j]`. -/
def Ppu.selAt (u : Ppu) (j : Nat) : Nat := (u.sel[j]?.getD 0).val

/-- The address of the low plane of row `row` of sprite tile `t`. A row outside 0..7, which a Y byte
changed after evaluation gives, is masked to 14 bits like every PPU address (R199, 20_memory.md R65;
log 9). -/
def Ppu.spriteAddr (u : Ppu) (t : Byte) (row : Int) : Int :=
  0x1000 * ((u.ctrl.getLsbD 3).toNat : Int) + 16 * (t.toNat : Int) + row

/-- The read of a signed PPU address: `a & $3FFF`. -/
def Ppu.readInt (c : Cart) (u : Ppu) (a : Int) : Byte := u.read c (a % 0x4000).toNat

/-- Pixel `k` of a sprite row: sprite index `i`, attribute `at`, left edge `x0`, planes `hi` and `lo`
(R199, R200). -/
def Ppu.spritePixel (s i : Nat) (attr x0 hi lo : Byte) (u : Ppu) (k : Nat) : Ppu :=
  let p := pixel hi lo (if attr.getLsbD 6 then k else 7 - k)
  let x := x0.toNat + k
  if x > 255 ∨ p = 0 ∨ u.sprClaimed.getLsbD x then u
  else
    let opaqueBg := u.bgOpaque.getLsbD x
    let u1 := { u with
      sprClaimed := setBit u.sprClaimed x true
      s0 := u.s0 || (i == 0 && opaqueBg) }
    if !attr.getLsbD 5 || !opaqueBg then
      u1.plot s x (u.colour (0x10 + 4 * (attr.toNat % 4) + p))
    else u1

/-- Fetch and composite of sprite `i` on line `s` (R199). -/
def Ppu.drawSprite (c : Cart) (u : Ppu) (s i : Nat) : Ppu :=
  let attr := u.spriteByte i 2
  let row := if attr.getLsbD 7 then 7 - u.spriteRow s i else u.spriteRow s i
  let base := u.spriteAddr (u.spriteByte i 1) row
  (List.range 8).foldl
    (Ppu.spritePixel s i attr (u.spriteByte i 3) (u.readInt c (base + 8)) (u.readInt c base)) u

/-- `SpriteFetchStep(s, d)`: slot j is drawn at dot 264 + 8j (R199). -/
def Ppu.spriteFetchStep (c : Cart) (u : Ppu) (s d : Nat) : Ppu :=
  let j := (d - 257) / 8
  if (d - 257) % 8 ≠ 7 ∨ j ≥ u.selCount then u else u.drawSprite c s (u.selAt j)

/-! ### Vblank and pre-render -/

/-- The NMI request of `EnterVblank()` (R201, R168). -/
def Ppu.nmiRequest (u : Ppu) : Bool := u.ctrl.getLsbD 7 && !u.nmiGuard

/-- The PPU after `EnterVblank()` (R201, R203). -/
def Ppu.enterVblank (u : Ppu) : Ppu :=
  { u with vbl := true, selCount := 0, frame := u.fb, frameReady := true, nmiGuard := true }

/-- `PreRender()` (R202). -/
def Ppu.preRender (u : Ppu) : Ppu :=
  { u with vbl := false, s0 := false, ovf := false, nmiGuard := false }

/-! ### One dot -/

/-- The counters advance: 341 dots a line, 262 lines (R194, 10_state.md R42). -/
def Ppu.advance (u : Ppu) : Ppu :=
  if u.dot + 1 = 341 then { u with dot := 0, scanline := (u.scanline + 1) % 262 }
  else { u with dot := u.dot + 1 }

/-- The actions of a dot on a visible line (R194). -/
def Ppu.visible (c : Cart) (u : Ppu) : Ppu :=
  let s := u.scanline
  let d := u.dot
  if 1 ≤ d ∧ d ≤ 256 then u.bgFetchStep c s d
  else if d = 257 then u.spriteEval s
  else if 258 ≤ d ∧ d ≤ 320 then u.spriteFetchStep c s d
  else u

/-- The action of the current position, before the counters advance (R194, R195). At dot 257 the
sprite slot step does nothing, since a slot is drawn on its last dot. -/
def Ppu.action (c : Cart) (u : Ppu) : Ppu :=
  if u.scanline ≤ 239 then u.visible c
  else if u.scanline = 241 ∧ u.dot = 0 then u.enterVblank
  else if u.scanline = 261 ∧ u.dot = 0 then u.preRender
  else u

/-- Whether a dot reports an NMI request (R194, R201). -/
def Ppu.tickRequest (u : Ppu) : Bool :=
  decide (u.scanline = 241 ∧ u.dot = 0) && u.nmiRequest

/-- The PPU after `PpuTick()` (R194). -/
def Ppu.tick (c : Cart) (u : Ppu) : Ppu := (u.action c).advance

/-- The PPU after `PpuStepN(n)` (R193). -/
def Ppu.stepN (c : Cart) : Nat → Ppu → Ppu
  | 0, u => u
  | n + 1, u => Ppu.stepN c n (u.tick c)

/-- Whether any of the `n` dots of `PpuStepN(n)` reports an NMI request (R193). -/
def Ppu.stepNRequest (c : Cart) : Nat → Ppu → Bool
  | 0, _ => false
  | n + 1, u => u.tickRequest || Ppu.stepNRequest c n (u.tick c)

end Sys2Proof.Machine
end

