-- ==== Sys2Proof/WellFormed.lean ====
section
/-! DEFINITION. Which instructions the machine of given parameters executes. The operands of `Instr`
carry their widths in their types (30_encoding.md R77), so no operand can be out of range; what can
fail is that the opcode has no execution case (R82). -/

namespace Sys2Proof

/-- `EXEC_SET` holds the opcode of `i` (00_scope.md R7, 30_encoding.md R82). With the default
parameters every instruction is well formed. -/
def Instr.wellFormed (ps : Params) (i : Instr) : Bool := !ps.unimplemented.contains i.opcode

end Sys2Proof
end

