-- ==== Sys2Proof/Machine/RunLoop.lean ====
section
/-! DEFINITION. The parts of one run-loop iteration around an instruction: fetch, PC advance, halt, the
PPU batch, the NMI check (40_addressing.md R87, R88; 60_exceptions.md R165, R169), and how an
instruction is placed where the next fetch finds it. -/

namespace Sys2Proof.Machine

/-! ### Fetch (40_addressing.md R87) -/

/-- The opcode byte, MemRead(pc0). -/
def State.fetch0 (s : State) : Byte := s.peek s.cpu.pc

/-- The second byte, MemRead(pc0 + 1), after the first read. -/
def State.fetch1 (s : State) : Byte := (s.touch s.cpu.pc).peek (s.cpu.pc + 1)

/-- The third byte, MemRead(pc0 + 2), after the first two reads. -/
def State.fetch2 (s : State) : Byte :=
  ((s.touch s.cpu.pc).touch (s.cpu.pc + 1)).peek (s.cpu.pc + 2)

/-- The state after the three fetch reads, which always happen, in this order (decision D11). -/
def State.afterFetch (s : State) : State :=
  ((s.touch s.cpu.pc).touch (s.cpu.pc + 1)).touch (s.cpu.pc + 2)

/-- The decoded instruction, if the opcode byte is mapped. -/
def State.fetched (s : State) : Option Instr := decode3 s.fetch0 s.fetch1 s.fetch2

/-- `PC <- pc0 + len(mode)` (40_addressing.md R88). -/
def State.advancePc (s : State) (i : Instr) : State :=
  s.setPc (s.cpu.pc + BitVec.ofNat 16 i.length)

/-- A halt: `halted` is set and the stop signal carries the cause (60_exceptions.md R165). -/
def State.halt (s : State) (cause : HaltCause) : State :=
  { s with halted := true, stopSignal := some cause }

/-- The number of a halt cause (60_exceptions.md R164). -/
def HaltCause.code : HaltCause → Nat
  | .invalidOpcode _ _ => 1
  | .unimplemented _ _ => 2

/-! ### Cycles, PPU batch and NMI check (60_exceptions.md R169) -/

/-- `CYCLES[op]` (00_scope.md R7, 30_encoding.md R84). -/
def cyclesOf (ps : Params) (op : Byte) : Nat :=
  match ps.cycleOverrides.find? (fun c => c.1 == op) with
  | some c => c.2
  | none => baseCycles op

/-- `if PpuStepN(n): nmiPending <- 1`. -/
def State.ppuBatch (s : State) (n : Nat) : State :=
  { s with
    ppu := s.ppu.stepN s.cart n
    nmiPending := s.nmiPending || s.ppu.stepNRequest s.cart n }

/-- The NMI check: a pending NMI is entered, and its 7 cycles are paid to the PPU. -/
def State.nmiCheck (s : State) : State :=
  if s.nmiPending then
    State.ppuBatch (State.nmiEntry { s with nmiPending := false }) (3 * nmiCycles)
  else s

/-- What follows an instruction of `cycles` cycles: 3 dots a cycle, then the NMI check. -/
def State.finish (s : State) (cycles : Nat) : State := (s.ppuBatch (3 * cycles)).nmiCheck

/-! ### Placing an instruction for the next fetch -/

/-- The state with byte `b` where a bus read of `a` finds it: work RAM, save RAM, or a byte of the
loaded image that program ROM shows. `none` where no such cell exists. -/
def State.placeByte (s : State) (a : Word) (b : Byte) : Option State :=
  if a.toNat ≤ 0x1FFF then some { s with wram := s.wram.write (a.toNat % 0x800) b }
  else if a.toNat < 0x6000 ∨ !s.cart.present then none
  else if a.toNat ≤ 0x7FFF then
    some { s with cart := { s.cart with sram := s.cart.sram.write (a.toNat - 0x6000) b } }
  else
    let off := s.cart.prgOffset a
    let i := s.cart.prgStart + off
    if off < 16384 * s.cart.prgBanks.toNat ∧ i < s.cart.image.length then
      some { s with cart := { s.cart with
        image := { s.cart.image with bytes := s.cart.image.bytes.write i b } } }
    else none

/-- The three bytes at PC, PC + 1 and PC + 2, where all three have a cell. -/
def State.place3 (s : State) (b0 b1 b2 : Byte) : Option State :=
  (s.placeByte s.cpu.pc b0).bind fun s1 =>
    (s1.placeByte (s.cpu.pc + 1) b1).bind fun s2 => s2.placeByte (s.cpu.pc + 2) b2

/-- The state in which the next step fetches the three bytes: at PC, or, where PC has no cells to
write, at $0000 in work RAM with PC moved there. A stopped machine is made to run (log 17). -/
def State.placeInstr (s : State) (b0 b1 b2 : Byte) : State :=
  let s0 := { s with halted := false, stopSignal := none, running := true }
  match s0.place3 b0 b1 b2 with
  | some s' => s'
  | none =>
    { s0 with
      cpu := { s0.cpu with pc := 0 }
      wram := ((s0.wram.write 0 b0).write 1 b1).write 2 b2 }

end Sys2Proof.Machine
end

