-- ==== Sys2Proof/Machine/Step.lean ====
section
/-! DEFINITION. The step of the machine: one iteration of the run loop (60_exceptions.md R169), and the
placing of an instruction for the host's check of the decoder. -/

namespace Sys2Proof.Machine

/-- One iteration of `RunLoop()` (60_exceptions.md R169) around `CpuStep()` (40_addressing.md R87). A
halt is a next state, in which `halted` is set and no batch has run and no NMI been entered (R165);
from a halted core, or with `running` cleared, no step is taken. -/
def step (s : State) : Host.Outcome State Fault Refusal :=
  if !s.running then .fault .notRunning
  else if s.halted then .fault .coreHalted
  else
    match s.fetched with
    | none => .next (s.afterFetch.halt (.invalidOpcode s.fetch0 s.cpu.pc))
    | some i =>
      if i.wellFormed s.params then
        match exec i (s.afterFetch.advancePc i) with
        | .next t => .next (t.finish (cyclesOf s.params i.opcode))
        | .fault r => .fault r
        | .refused r => .refused r
      else .next (s.afterFetch.halt (.unimplemented s.fetch0 s.cpu.pc))

/-- `s` with the instruction whose bytes are the low `nbits` bits of `w`, byte k being bits 8k+7..8k
and every higher bit 0, where the next step fetches its instruction (log 17). -/
def State.withFetchWord (s : State) (nbits w : Nat) : State :=
  let v := w % 2 ^ nbits
  s.placeInstr (BitVec.ofNat 8 v) (BitVec.ofNat 8 (v / 0x100)) (BitVec.ofNat 8 (v / 0x10000))

end Sys2Proof.Machine
end

