-- ==== Sys2Proof/Machine/Asm.lean ====
section
/-! DEFINITION. The assembler's text of an instruction (30_encoding.md R85) and the displacement an
assembler encodes for a branch target. No step uses it. -/

namespace Sys2Proof

/-- The mnemonic as it is written. -/
def Mnemonic.text : Mnemonic → String
  | .adc => "ADC"
  | .and => "AND"
  | .asl => "ASL"
  | .bcc => "BCC"
  | .bcs => "BCS"
  | .beq => "BEQ"
  | .bit => "BIT"
  | .bmi => "BMI"
  | .bne => "BNE"
  | .bpl => "BPL"
  | .brk => "BRK"
  | .bvc => "BVC"
  | .bvs => "BVS"
  | .clc => "CLC"
  | .cld => "CLD"
  | .cli => "CLI"
  | .clv => "CLV"
  | .cmp => "CMP"
  | .cpx => "CPX"
  | .cpy => "CPY"
  | .dec => "DEC"
  | .dex => "DEX"
  | .dey => "DEY"
  | .eor => "EOR"
  | .inc => "INC"
  | .inx => "INX"
  | .iny => "INY"
  | .jmp => "JMP"
  | .jsr => "JSR"
  | .lda => "LDA"
  | .ldx => "LDX"
  | .ldy => "LDY"
  | .lsr => "LSR"
  | .nop => "NOP"
  | .ora => "ORA"
  | .pha => "PHA"
  | .php => "PHP"
  | .pla => "PLA"
  | .plp => "PLP"
  | .rol => "ROL"
  | .ror => "ROR"
  | .rti => "RTI"
  | .rts => "RTS"
  | .sbc => "SBC"
  | .sec => "SEC"
  | .sed => "SED"
  | .sei => "SEI"
  | .sta => "STA"
  | .stx => "STX"
  | .sty => "STY"
  | .tax => "TAX"
  | .tay => "TAY"
  | .tsx => "TSX"
  | .txa => "TXA"
  | .txs => "TXS"
  | .tya => "TYA"

/-- A hexadecimal digit. -/
def hexDigit (n : Nat) : String :=
  ["0", "1", "2", "3", "4", "5", "6", "7", "8", "9", "A", "B", "C", "D", "E", "F"].getD n ""

/-- A byte in two hexadecimal digits. -/
def hexByte (b : Byte) : String := hexDigit (b.toNat / 16) ++ hexDigit (b.toNat % 16)

/-- A word in four hexadecimal digits. -/
def hexWord (w : Word) : String := hexByte (hiByte w) ++ hexByte (loByte w)

/-- The target a branch at `pc` with displacement `d` is written with (40_addressing.md R101). -/
def relTarget (pc : Word) (d : Byte) : Word := pc + 2 + d.signExtend 16

/-- The displacement byte of a branch at `pc` to `target`: `target - (pc + 2)`, where it lies in
-128..127. -/
def relByte (pc target : Word) : Option Byte :=
  let d := (target - (pc + 2)).toInt
  if -128 ≤ d ∧ d ≤ 127 then some (BitVec.ofInt 8 d) else none

/-- The operand of a mode as it is written, for an instruction at `pc` with these operand bytes. -/
def Mode.operandText (pc : Word) (m : Mode) (operand : List Byte) : String :=
  let b := operand.getD 0 0
  let w := ofHiLo (operand.getD 1 0) b
  match m with
  | .imp => ""
  | .acc => "A"
  | .imm => "#$" ++ hexByte b
  | .zp => "$" ++ hexByte b
  | .zpx => "$" ++ hexByte b ++ ",X"
  | .zpy => "$" ++ hexByte b ++ ",Y"
  | .abs => "$" ++ hexWord w
  | .absx => "$" ++ hexWord w ++ ",X"
  | .absy => "$" ++ hexWord w ++ ",Y"
  | .ind => "($" ++ hexWord w ++ ")"
  | .indx => "($" ++ hexByte b ++ ",X)"
  | .indy => "($" ++ hexByte b ++ "),Y"
  | .rel => "$" ++ hexWord (relTarget pc b)

/-- An instruction at `pc` as it is written (30_encoding.md R85). -/
def Instr.text (pc : Word) (i : Instr) : String :=
  let operand := i.info.mode.operandText pc i.info.operand
  i.info.mnemonic.text ++ (if operand = "" then "" else " " ++ operand)

end Sys2Proof
end

