-- ==== Sys2Proof/Machine/PowerUp.lean ====
section
/-! DEFINITION. The host's side of the machine (60_exceptions.md R170, R203): power-up with every OPEN
parameter as an argument (70_reset_and_hazards.md R204, R205), and what the host may do between two
iterations of the run loop. -/

namespace Sys2Proof.Machine

/-! ### Power-up -/

/-- `MEM_INIT`: the initial contents of each memory, as lists of cells (00_scope.md R7). -/
structure MemInit where
  wram : List Host.Cell
  sram : List Host.Cell
  chrRam : List Host.Cell
  oam : List Host.Cell
  ciram : List Host.Cell
  palBd : Byte
  pal : List Host.Cell
  deriving DecidableEq, Repr

/-- What the host supplies at power-up: `CART_IMAGE` (length and non-zero bytes, or absent),
`CPU_INIT`, `MEM_INIT`, the persisted save RAM if there is one, and the machine's parameters
(00_scope.md R7, 60_exceptions.md R170). -/
structure PowerUpInput where
  image : Option (Nat × List Host.Cell)
  a : Byte
  x : Byte
  y : Byte
  mem : MemInit
  savedSram : Option (List Host.Cell)
  params : Params
  deriving DecidableEq, Repr

/-- The entries 1 to 3 of each palette group; the backdrop is `palBd`. -/
def palCells (cells : List Host.Cell) : List Host.Cell := cells.filter fun c => c.1 % 4 != 0

/-- `InsertCartridge(CART_IMAGE)` with the initial contents of the cartridge's RAMs (R204, R205). -/
def PowerUpInput.cart (inp : PowerUpInput) : Cart :=
  insertCartridge (inp.image.map fun im => Image.ofCells im.1 im.2)
    (Memory.ofCells 8192 (inp.savedSram.getD inp.mem.sram)) (Memory.ofCells 8192 inp.mem.chrRam)

/-- Every state item at its value in R205, PC not yet loaded. -/
def PowerUpInput.beforeVector (inp : PowerUpInput) : State :=
  { State.reset with
    cpu := { State.reset.cpu with a := inp.a, x := inp.x, y := inp.y }
    wram := Memory.ofCells 2048 inp.mem.wram
    cart := inp.cart
    ppu := { Ppu.reset with
      oam := Memory.ofCells 256 inp.mem.oam
      ciram := Memory.ofCells 2048 inp.mem.ciram
      palBd := inp.mem.palBd
      pal := Memory.ofCells 32 (palCells inp.mem.pal) }
    params := inp.params }

/-- `PowerUp(CART_IMAGE)`: then `PC <- Read16($FFFC)` through the bus decoder (R204). -/
def powerUp (inp : PowerUpInput) : State :=
  inp.beforeVector.setPc (inp.beforeVector.peek16 resetVector)

/-- Power-up with no cartridge and blank memories. -/
def PowerUpInput.blank : PowerUpInput where
  image := none
  a := 0
  x := 0
  y := 0
  mem := ⟨[], [], [], [], [], 0, []⟩
  savedSram := none
  params := Params.default

/-! ### Between iterations -/

/-- What the host may do between two iterations (60_exceptions.md R169, R170, R203). -/
inductive HostAction where
  /-- Replace the BUTTONS snapshot. -/
  | setButtons (b : Buttons)
  /-- Take FRAME, which clears `frameReady`. -/
  | takeFrame
  /-- Set or clear the `running` condition. -/
  | setRunning (r : Bool)
  /-- Write a byte of SRAM. -/
  | writeSram (i : Fin 8192) (v : Byte)
  deriving DecidableEq, Repr

/-- The state after a host action. -/
def State.hostAct (s : State) : HostAction → State
  | .setButtons b => { s with ctrl := { s.ctrl with buttons := b } }
  | .takeFrame => { s with ppu := { s.ppu with frameReady := false } }
  | .setRunning r => { s with running := r }
  | .writeSram i v => { s with cart := { s.cart with sram := s.cart.sram.write i.val v } }

/-- A byte of SRAM, as the host reads it for persistence (60_exceptions.md R170). -/
def State.hostReadSram (s : State) (i : Fin 8192) : Byte := s.cart.sram.read i.val

/-- The colour the host presents at line `y` and column `x` of FRAME: `MASTER_PALETTE(index)`
(60_exceptions.md R203; the palette is a free value, log 12). -/
def State.presented (s : State) (y : Fin 240) (x : Fin 256) : Rgb :=
  Config.masterPalette (s.ppu.frameAt y.val x.val)

end Sys2Proof.Machine
end

