-- ==== Sys2Proof/Safety.lean ====
section
/-! DEFINITION. The terms claims use: what a safe run is, the invariant of the machine, which addresses
are plain memory, and the status byte written out bit by bit. -/

namespace Sys2Proof.Machine

/-! ### Runs -/

/-- The run loop goes on: the host's condition holds and the core has not halted (60_exceptions.md
R169). -/
abbrev State.Live (s : State) : Prop := s.running = true ∧ s.halted = false

/-- A state is safe when the core has not halted: a halt is a fault, never a successful end
(70_reset_and_hazards.md R212). A run is safe when all its states are. -/
abbrev State.Safe (s : State) : Prop := s.halted = false

/-- The states of the machine: power-up with any image, parameters and initial contents, then steps
and host actions in any order (60_exceptions.md R169, R170). -/
inductive Reachable : State → Prop where
  | powerUp (inp : PowerUpInput) : Reachable (powerUp inp)
  | step {s t : State} : Reachable s → Machine.step s = .next t → Reachable t
  | host {s : State} (h : HostAction) : Reachable s → Reachable (s.hostAct h)

/-! ### The status byte -/

/-- P written out, N V U B D I Z C from bit 7 down (10_state.md R20). -/
def packP (n v u b d i z c : Bool) : Byte := BitVec.ofBoolListBE [n, v, u, b, d, i, z, c]

/-- P with Z and N those of the value `r`, the other six bits kept. -/
def withZN (p r : Byte) : Byte :=
  packP (r.getLsbD 7) (p.getLsbD 6) (p.getLsbD 5) (p.getLsbD 4) (p.getLsbD 3) (p.getLsbD 2)
    (decide (r = 0)) (p.getLsbD 0)

/-- P with C, and Z and N those of the value `r`, the other five bits kept. -/
def withCZN (p : Byte) (c : Bool) (r : Byte) : Byte :=
  packP (r.getLsbD 7) (p.getLsbD 6) (p.getLsbD 5) (p.getLsbD 4) (p.getLsbD 3) (p.getLsbD 2)
    (decide (r = 0)) c

/-- P with C, V, and Z and N those of the value `r`, the other four bits kept. -/
def withCVZN (p : Byte) (c v : Bool) (r : Byte) : Byte :=
  packP (r.getLsbD 7) v (p.getLsbD 5) (p.getLsbD 4) (p.getLsbD 3) (p.getLsbD 2)
    (decide (r = 0)) c

/-- P with I set, the other bits kept. -/
def withI (p : Byte) : Byte :=
  packP (p.getLsbD 7) (p.getLsbD 6) (p.getLsbD 5) (p.getLsbD 4) (p.getLsbD 3) true (p.getLsbD 1)
    (p.getLsbD 0)

/-! ### Addresses -/

/-- An address outside the PPU ports and the controller port: its reads have no side effect and no
device stands behind it (20_memory.md R64). -/
abbrev Plain (a : Word) : Prop := (a.toNat ≤ 0x1FFF ∨ 0x3FFF < a.toNat) ∧ a.toNat ≠ 0x4016

/-- Two addresses of one cell: the same address, or two mirrors of one work-RAM cell (20_memory.md
R55). -/
abbrev SameCell (a b : Word) : Prop :=
  a = b ∨ (a.toNat ≤ 0x1FFF ∧ b.toNat ≤ 0x1FFF ∧ a.toNat % 0x800 = b.toNat % 0x800)

/-! ### Where an instruction stores -/

/-- The addresses an instruction stores to, in a state whose PC has been advanced. -/
def State.stores (s : State) : Instr → List Word
  | .staZp b | .stxZp b | .styZp b | .incZp b | .decZp b | .aslZp b | .lsrZp b | .rolZp b
  | .rorZp b => [s.ea (.zp b)]
  | .staZpx b | .styZpx b | .incZpx b | .decZpx b | .aslZpx b | .lsrZpx b | .rolZpx b
  | .rorZpx b => [s.ea (.zpx b)]
  | .stxZpy b => [s.ea (.zpy b)]
  | .staAbs w | .stxAbs w | .styAbs w | .incAbs w | .decAbs w | .aslAbs w | .lsrAbs w | .rolAbs w
  | .rorAbs w => [s.ea (.abs w)]
  | .staAbsx w | .incAbsx w | .decAbsx w | .aslAbsx w | .lsrAbsx w | .rolAbsx w
  | .rorAbsx w => [s.ea (.absx w)]
  | .staAbsy w => [s.ea (.absy w)]
  | .staIndx b => [s.ea (.indx b)]
  | .staIndy b => [s.ea (.indy b)]
  | .jsrAbs _ => [stackAddr s.cpu.s, stackAddr (s.cpu.s - 1)]
  | .pha | .php => [stackAddr s.cpu.s]
  | .brk => [stackAddr s.cpu.s, stackAddr (s.cpu.s - 1), stackAddr (s.cpu.s - 2)]
  | _ => []

/-! ### The invariant -/

/-- The number of dots from (0, 0) to the current position. -/
def Ppu.position (u : Ppu) : Nat := 341 * u.scanline + u.dot

/-- The dots of the vblank in which the NMI guard is set: from the dot after (241, 0) up to (261, 0)
(60_exceptions.md R168). -/
abbrev InVblank (pos : Nat) : Prop := 341 * 241 < pos ∧ pos ≤ 341 * 261

/-- The header fields are those of the image (20_memory.md R59), or all 0 without a cartridge
(70_reset_and_hazards.md R205; `mapper` by log 19). -/
structure Cart.HeaderOk (c : Cart) : Prop where
  long : c.present = true → 16 ≤ c.image.length
  prgBanks : c.prgBanks = if c.present then c.image.get 4 else 0
  chrBanks : c.chrBanks = if c.present then c.image.get 5 else 0
  mirror : c.mirrorFlag = (c.present && (c.image.get 6).getLsbD 0)
  battery : c.battery = (c.present && (c.image.get 6).getLsbD 1)
  trainer : c.trainer = (c.present && (c.image.get 6).getLsbD 2)
  mapper : c.mapper =
    if c.present then (c.image.get 7 &&& 0xF0) ||| (c.image.get 6 >>> 4) else 0

/-- The cartridge is well formed: canonical memories, the header's fields, and CHR RAM only without
CHR banks. -/
structure Cart.Inv (c : Cart) : Prop where
  image : Memory.wf c.image.length c.image.bytes
  sram : Memory.wf 8192 c.sram
  chrRam : Memory.wf 8192 c.chrRam
  chrRom : c.chrBanks ≠ 0 → c.chrRam = []
  header : c.HeaderOk

/-- The PPU is well formed: canonical memories, counters in range, the latches of ports 0 and 1 equal to
their registers, and the NMI guard set exactly during vblank. -/
structure Ppu.Inv (u : Ppu) : Prop where
  oam : Memory.wf 256 u.oam
  ciram : Memory.wf 2048 u.ciram
  pal : Memory.wf 32 u.pal
  palBackdrop : ∀ c ∈ u.pal, c.1 % 4 ≠ 0
  fb : Cells.Canonical 0 u.fb ∧ Cells.Below (240 * 256) u.fb
  frame : Cells.Canonical 0 u.frame ∧ Cells.Below (240 * 256) u.frame
  scanline : u.scanline < 262
  dot : u.dot < 341
  selCount : u.selCount ≤ 8
  scrollY : u.scrollY.toNat < 240
  ctrlLatch : u.latch.ctrl = u.ctrl
  maskLatch : u.latch.mask = u.mask
  guard : u.nmiGuard = true ↔ InVblank u.position
  vblGuard : u.vbl = true → u.nmiGuard = true

/-- The invariant of the machine. -/
structure State.Inv (s : State) : Prop where
  wram : Memory.wf 2048 s.wram
  ctrlIndex : s.ctrl.index ≤ 8
  cart : s.cart.Inv
  ppu : s.ppu.Inv
  stop : s.halted = true ↔ s.stopSignal.isSome = true

/-! ### Bits a program cannot see -/

/-- Two status bytes that differ at most in the stored B and U (10_state.md R27). -/
abbrev SameFlags (p q : Byte) : Prop := p ||| 0x30 = q ||| 0x30

/-- Two states that differ at most in the stored B and U of P. -/
abbrev SameButBU (s t : State) : Prop :=
  SameFlags s.cpu.p t.cpu.p ∧ t = s.setP t.cpu.p

end Sys2Proof.Machine
end

