-- ==== Sys2Proof/Certificates/Slice0/Obligations.lean ====
section
/-! DEFINITION. The statements for the provers, each a rule of the spec or what rests on several of
them, over the model's own operations. The terms they share come first. -/

namespace Sys2Proof.Claims

open Sys2Proof.Machine

/-! ### One form of an instruction -/

/-- The row of `i` in the opcode table: its opcode byte, its length in bytes, its base cycle count
(30_encoding.md R76, R78, R84). -/
abbrev Encoded (i : Instr) (op : Byte) (len cycles : Nat) : Prop :=
  i.opcode = op ∧ (encode i).length = len ∧ i.length = len ∧ baseCycles op = cycles

/-- `i` has this row, and in every state `s` it completes, in exactly the state `t`. -/
abbrev Runs (i : Instr) (op : Byte) (len cycles : Nat) (s t : State) : Prop :=
  Encoded i op len cycles ∧ exec i s = .next t

/-- A form that reads the memory byte at its effective address: `g` is applied to the state the bus
read leaves and to the byte read. -/
abbrev Reads (i : Instr) (op : Byte) (len cycles : Nat) (s : State) (f : MemForm)
    (g : State → Byte → State) : Prop :=
  Runs i op len cycles s (g (s.touch (s.ea f)) (s.peek (s.ea f)))

/-- A form whose whole effect is one bus write of `v` at its effective address. -/
abbrev Stores (i : Instr) (op : Byte) (len cycles : Nat) (s : State) (f : MemForm) (v : Byte) : Prop :=
  Runs i op len cycles s (s.memWrite (s.ea f) v)

/-- A read-modify-write form: one bus read of the byte, one bus write of the result, and the new P. `g`
gives the result and the new P for the byte read. -/
abbrev Updates (i : Instr) (op : Byte) (len cycles : Nat) (s : State) (f : MemForm)
    (g : Byte → Byte × Byte) : Prop :=
  Runs i op len cycles s
    { (s.touch (s.ea f)).memWrite (s.ea f) (g (s.peek (s.ea f))).1 with
      cpu := { s.cpu with p := (g (s.peek (s.ea f))).2 } }

/-! ### Effects: every field not named is that of `s` -/

/-- A is `v`, and Z and N are those of `v`. -/
def loadedA (s : State) (v : Byte) : State :=
  { s with cpu := { s.cpu with a := v, p := withZN s.cpu.p v } }

/-- X is `v`, and Z and N are those of `v`. -/
def loadedX (s : State) (v : Byte) : State :=
  { s with cpu := { s.cpu with x := v, p := withZN s.cpu.p v } }

/-- Y is `v`, and Z and N are those of `v`. -/
def loadedY (s : State) (v : Byte) : State :=
  { s with cpu := { s.cpu with y := v, p := withZN s.cpu.p v } }

/-- The exact sum of A, `m` and the carry, 0 to 511. -/
def sumOf (s : State) (m : Byte) : Nat := s.cpu.a.toNat + m.toNat + (s.cpu.p.getLsbD 0).toNat

/-- A is the sum reduced to 8 bits; C is the bit lost; V is the rule's test of the sign bits; Z and N
are those of the result; I, D, B and U stay. -/
def added (s : State) (m : Byte) : State :=
  let r : Byte := BitVec.ofNat 8 (sumOf s m)
  { s with cpu := { s.cpu with
      a := r
      p := withCVZN s.cpu.p (decide (255 < sumOf s m))
        ((s.cpu.a ^^^ r) &&& (m ^^^ r) &&& 0x80 != 0) r } }

/-- Z from A AND `m`, N and V from bits 7 and 6 of `m`; no register is written. -/
def tested (s : State) (m : Byte) : State :=
  { s with cpu := { s.cpu with
      p := packP (m.getLsbD 7) (m.getLsbD 6) (s.cpu.p.getLsbD 5) (s.cpu.p.getLsbD 4)
        (s.cpu.p.getLsbD 3) (s.cpu.p.getLsbD 2) (decide (s.cpu.a &&& m = 0)) (s.cpu.p.getLsbD 0) } }

/-- C is `l ≥ m` unsigned, Z is `l = m`, N is bit 7 of the difference; V, I, D, B and U stay, and no
register is written. -/
def compared (l : Byte) (s : State) (m : Byte) : State :=
  { s with cpu := { s.cpu with
      p := packP ((l - m).getLsbD 7) (s.cpu.p.getLsbD 6) (s.cpu.p.getLsbD 5) (s.cpu.p.getLsbD 4)
        (s.cpu.p.getLsbD 3) (s.cpu.p.getLsbD 2) (decide (l = m)) (decide (m.toNat ≤ l.toNat)) } }

/-- The result of INC or DEC and the new P. -/
def stepped (r : Byte) (s : State) : Byte × Byte := (r, withZN s.cpu.p r)

/-- The result of a shift of `v` and the new P, with `c` the bit shifted out. -/
def carried (s : State) (r : Nat) (c : Bool) : Byte × Byte :=
  (BitVec.ofNat 8 r, withCZN s.cpu.p c (BitVec.ofNat 8 r))

/-- ASL: twice `v`, bit 7 shifted out. -/
def aslOf (s : State) (v : Byte) : Byte × Byte := carried s (2 * v.toNat) (decide (128 ≤ v.toNat))

/-- LSR: half of `v`, bit 0 shifted out. -/
def lsrOf (s : State) (v : Byte) : Byte × Byte := carried s (v.toNat / 2) (decide (v.toNat % 2 = 1))

/-- ROL: twice `v` plus the old carry, bit 7 shifted out. -/
def rolOf (s : State) (v : Byte) : Byte × Byte :=
  carried s (2 * v.toNat + (s.cpu.p.getLsbD 0).toNat) (decide (128 ≤ v.toNat))

/-- ROR: half of `v` with the old carry above it, bit 0 shifted out. -/
def rorOf (s : State) (v : Byte) : Byte × Byte :=
  carried s (v.toNat / 2 + 128 * (s.cpu.p.getLsbD 0).toNat) (decide (v.toNat % 2 = 1))

/-- A and P are the two bytes. -/
def rotatedA (s : State) (r : Byte × Byte) : State :=
  { s with cpu := { s.cpu with a := r.1, p := r.2 } }

/-- A branch with displacement `d`: PC plus the signed `d` modulo 65536 when `taken`, and nothing
else. -/
def branched (s : State) (taken : Bool) (d : Byte) : State :=
  if taken then { s with cpu := { s.cpu with pc := BitVec.ofInt 16 (s.cpu.pc.toNat + d.toInt) } }
  else s

/-- The same state with another P. -/
def withP (s : State) (p : Byte) : State := { s with cpu := { s.cpu with p := p } }

/-- P with bit `k` made `b`, the other seven kept. -/
def bitOf (p : Byte) (k : Nat) (b : Bool) : Byte :=
  BitVec.ofBoolListBE ([7, 6, 5, 4, 3, 2, 1, 0].map fun j => if j = k then b else p.getLsbD j)

/-- The work-RAM index of the stack cell `k` below S. -/
def stackCell (s : State) (k : Byte) : Nat := 0x100 + (s.cpu.s - k).toNat

/-- The byte `k` pulls from here would return, from the stack page of work RAM. -/
def onStack (s : State) (k : Byte) : Byte := s.wram.read (0x100 + (s.cpu.s + k).toNat)

/-- Interrupt entry: the return address high byte first, then the given copy of P; S three lower, I
set, PC from the vector; D and the stored B and U stay, and nothing else changes. -/
def entered (s : State) (ret : Word) (pushed : Byte) (vec : Word) : State :=
  { s with
    cpu := { s.cpu with
      s := s.cpu.s - 3
      p := withI s.cpu.p
      pc := ofHiLo (s.peek (vec + 1)) (s.peek vec) }
    wram := ((s.wram.write (stackCell s 0) (hiByte ret)).write (stackCell s 1) (loByte ret)).write
      (stackCell s 2) pushed }

/-! ### Bytes and words -/

/-- The bytes of an instruction as one word, numbered as the opcode table numbers them: the first byte
in bits 7 to 0. -/
def tableWord : List Byte → Nat
  | [] => 0
  | b :: bs => b.toNat + 256 * tableWord bs

/-- The last byte that a list of cells gives to key `a` below `n`, and $00 where it gives none. -/
def listed (n : Nat) (cells : List Host.Cell) (a : Nat) : Byte :=
  if a < n then ((cells.reverse.find? fun c => c.1 == a).map (·.2)).getD 0 else 0

/-- The state after `n` bus reads of the address `a`. -/
def readTimes (a : Word) : Nat → State → State
  | 0, s => s
  | n + 1, s => readTimes a n (s.touch a)

/-- The state after the first `n` copies of an OAM DMA of page `v`: copy `i` is one bus read of offset
`i` of the page, its byte stored at `(OAMADDR + i) & $FF` of OAM (60_exceptions.md R191). -/
def copied (v : Byte) (s : State) : Nat → State
  | 0 => s
  | i + 1 =>
    let t := copied v s i
    let a := ofHiLo v (BitVec.ofNat 8 i)
    let t' := t.touch a
    { t' with ppu := { t'.ppu with
        oam := t.ppu.oam.write ((s.ppu.oamAddr.toNat + i) % 256) (t.peek a) } }

/-- The state that bus reads of the first `n` bytes of page `v`, in order, leave. -/
def readPage (v : Byte) (s : State) : Nat → State
  | 0 => s
  | n + 1 => (readPage v s n).touch (ofHiLo v (BitVec.ofNat 8 n))

/-! ### The PPU -/

/-- The indices of the sprites whose Y byte puts them on line `s`, in ascending order. -/
def onLine (u : Ppu) (s : Nat) : List Nat :=
  (List.range 64).filter fun i =>
    decide ((u.oam.read (4 * i)).toNat + 1 ≤ s ∧ s ≤ (u.oam.read (4 * i)).toNat + 8)

/-- The value of pixel `k` of sprite `i` on line `s`, from the two planes of its row: row 7 - r when
flipped vertically, bit k instead of 7 - k when flipped horizontally. -/
def spriteValue (c : Cart) (u : Ppu) (s i k : Nat) : Nat :=
  let attr := u.oam.read (4 * i + 2)
  let row : Int := (s : Int) - ((u.oam.read (4 * i)).toNat + 1)
  let base : Int := 0x1000 * ((u.ctrl.getLsbD 3).toNat : Int) +
    16 * ((u.oam.read (4 * i + 1)).toNat : Int) + if attr.getLsbD 7 then 7 - row else row
  let lo := u.read c (base % 0x4000).toNat
  let hi := u.read c ((base + 8) % 0x4000).toNat
  let b := if attr.getLsbD 6 then k else 7 - k
  2 * (hi.getLsbD b).toNat + (lo.getLsbD b).toNat

/-- Sprite `i` owns column `x` of line `s` when it is drawn: it is opaque there and no lower index has
claimed the column. -/
abbrev Owns (c : Cart) (u : Ppu) (s i x : Nat) : Prop :=
  (u.oam.read (4 * i + 3)).toNat ≤ x ∧ x < (u.oam.read (4 * i + 3)).toNat + 8 ∧ x ≤ 255 ∧
  spriteValue c u s i (x - (u.oam.read (4 * i + 3)).toNat) ≠ 0 ∧ u.sprClaimed.getLsbD x = false

/-- A position at which a dot does nothing but advance the counters. -/
abbrev Idle (s d : Nat) : Prop :=
  (s ≤ 239 ∧ (d = 0 ∨ 321 ≤ d)) ∨ s = 240 ∨ (242 ≤ s ∧ s ≤ 260) ∨ ((s = 241 ∨ s = 261) ∧ d ≠ 0)

end Sys2Proof.Claims

open Sys2Proof Sys2Proof.Machine Sys2Proof.Claims

/-- For every state and operand, each of the eight forms of LDA has the opcode byte, length and
cycle count of its row and completes: A is the operand byte (the immediate, or the byte one bus
read of the effective address returns), Z is 1 exactly when that byte is 0 and N is its bit 7, the
other bits of P stay, and every other field is that of the state the bus read leaves (R105). -/
def Obligations.LdaLoadsA : Prop :=
  ∀ (s : State) (v b : Byte) (w : Word),
    Runs (.ldaImm v) 0xA9 2 2 s (loadedA s v) ∧
    Reads (.ldaZp b) 0xA5 2 3 s (.zp b) loadedA ∧
    Reads (.ldaZpx b) 0xB5 2 4 s (.zpx b) loadedA ∧
    Reads (.ldaAbs w) 0xAD 3 4 s (.abs w) loadedA ∧
    Reads (.ldaAbsx w) 0xBD 3 4 s (.absx w) loadedA ∧
    Reads (.ldaAbsy w) 0xB9 3 4 s (.absy w) loadedA ∧
    Reads (.ldaIndx b) 0xA1 2 6 s (.indx b) loadedA ∧
    Reads (.ldaIndy b) 0xB1 2 5 s (.indy b) loadedA

/-- For every state and operand, each of the five forms of LDX and the five of LDY has the opcode
byte, length and cycle count of its row and completes: X (Y) is the operand byte, Z and N are
those of that byte, the other bits of P stay, and every other field is that of the state the
operand's bus read leaves (R106, R107). -/
def Obligations.LdxLdyLoadTheIndexRegisters : Prop :=
  ∀ (s : State) (v b : Byte) (w : Word),
    Runs (.ldxImm v) 0xA2 2 2 s (loadedX s v) ∧
    Reads (.ldxZp b) 0xA6 2 3 s (.zp b) loadedX ∧
    Reads (.ldxZpy b) 0xB6 2 4 s (.zpy b) loadedX ∧
    Reads (.ldxAbs w) 0xAE 3 4 s (.abs w) loadedX ∧
    Reads (.ldxAbsy w) 0xBE 3 4 s (.absy w) loadedX ∧
    Runs (.ldyImm v) 0xA0 2 2 s (loadedY s v) ∧
    Reads (.ldyZp b) 0xA4 2 3 s (.zp b) loadedY ∧
    Reads (.ldyZpx b) 0xB4 2 4 s (.zpx b) loadedY ∧
    Reads (.ldyAbs w) 0xAC 3 4 s (.abs w) loadedY ∧
    Reads (.ldyAbsx w) 0xBC 3 4 s (.absx w) loadedY

/-- For every state and operand, each form of STA, STX and STY has the opcode byte, length and
cycle count of its row and completes in exactly the state that one bus write of A, X or Y at the
form's effective address leaves: no register and no flag changes but by that write (R108, R109,
R110). -/
def Obligations.StoresMakeOneBusWrite : Prop :=
  ∀ (s : State) (b : Byte) (w : Word),
    Stores (.staZp b) 0x85 2 3 s (.zp b) s.cpu.a ∧
    Stores (.staZpx b) 0x95 2 4 s (.zpx b) s.cpu.a ∧
    Stores (.staAbs w) 0x8D 3 4 s (.abs w) s.cpu.a ∧
    Stores (.staAbsx w) 0x9D 3 5 s (.absx w) s.cpu.a ∧
    Stores (.staAbsy w) 0x99 3 5 s (.absy w) s.cpu.a ∧
    Stores (.staIndx b) 0x81 2 6 s (.indx b) s.cpu.a ∧
    Stores (.staIndy b) 0x91 2 6 s (.indy b) s.cpu.a ∧
    Stores (.stxZp b) 0x86 2 3 s (.zp b) s.cpu.x ∧
    Stores (.stxZpy b) 0x96 2 4 s (.zpy b) s.cpu.x ∧
    Stores (.stxAbs w) 0x8E 3 4 s (.abs w) s.cpu.x ∧
    Stores (.styZp b) 0x84 2 3 s (.zp b) s.cpu.y ∧
    Stores (.styZpx b) 0x94 2 4 s (.zpx b) s.cpu.y ∧
    Stores (.styAbs w) 0x8C 3 4 s (.abs w) s.cpu.y

/-- For every state, each transfer and each index increment or decrement has the row of the opcode
table and completes: its destination register is the source register (or itself plus or minus 1
modulo 256), Z and N are those of the new value and the other bits of P stay; TXS writes S and no
flag; every other field is unchanged (R111, R112, R113, R114, R115, R116, R130, R131, R132, R133).
-/
def Obligations.TransfersAndIndexSteps : Prop :=
  ∀ s : State,
    Runs .tax 0xAA 1 2 s (loadedX s s.cpu.a) ∧
    Runs .tay 0xA8 1 2 s (loadedY s s.cpu.a) ∧
    Runs .txa 0x8A 1 2 s (loadedA s s.cpu.x) ∧
    Runs .tya 0x98 1 2 s (loadedA s s.cpu.y) ∧
    Runs .tsx 0xBA 1 2 s (loadedX s s.cpu.s) ∧
    Runs .txs 0x9A 1 2 s { s with cpu := { s.cpu with s := s.cpu.x } } ∧
    Runs .inx 0xE8 1 2 s (loadedX s (s.cpu.x + 1)) ∧
    Runs .iny 0xC8 1 2 s (loadedY s (s.cpu.y + 1)) ∧
    Runs .dex 0xCA 1 2 s (loadedX s (s.cpu.x - 1)) ∧
    Runs .dey 0x88 1 2 s (loadedY s (s.cpu.y - 1))

/-- For every state and operand, each of the eight forms of ADC has its row of the opcode table
and completes: with sum = A + M + C exact, A is sum mod 256, C is sum > 255, V is ((A ^ r) & (M ^
r) & $80) ≠ 0, Z and N are those of the result; I, D, B and U stay, D is not read, and every other
field is that of the state the operand's bus read leaves (R119). -/
def Obligations.AdcAddsWithCarry : Prop :=
  ∀ (s : State) (v b : Byte) (w : Word),
    Runs (.adcImm v) 0x69 2 2 s (added s v) ∧
    Reads (.adcZp b) 0x65 2 3 s (.zp b) added ∧
    Reads (.adcZpx b) 0x75 2 4 s (.zpx b) added ∧
    Reads (.adcAbs w) 0x6D 3 4 s (.abs w) added ∧
    Reads (.adcAbsx w) 0x7D 3 4 s (.absx w) added ∧
    Reads (.adcAbsy w) 0x79 3 4 s (.absy w) added ∧
    Reads (.adcIndx b) 0x61 2 6 s (.indx b) added ∧
    Reads (.adcIndy b) 0x71 2 5 s (.indy b) added

/-- For every state and operand, each of the eight forms of SBC has its row of the opcode table
and completes in exactly the state that adding the operand XOR $FF with carry gives: A, C, V, Z
and N as ADC computes them from the complemented operand, nothing else changed but by the
operand's bus read (R120). -/
def Obligations.SbcAddsTheComplement : Prop :=
  ∀ (s : State) (v b : Byte) (w : Word),
    Runs (.sbcImm v) 0xE9 2 2 s (added s (v ^^^ 0xFF)) ∧
    Reads (.sbcZp b) 0xE5 2 3 s (.zp b) (fun t m => added t (m ^^^ 0xFF)) ∧
    Reads (.sbcZpx b) 0xF5 2 4 s (.zpx b) (fun t m => added t (m ^^^ 0xFF)) ∧
    Reads (.sbcAbs w) 0xED 3 4 s (.abs w) (fun t m => added t (m ^^^ 0xFF)) ∧
    Reads (.sbcAbsx w) 0xFD 3 4 s (.absx w) (fun t m => added t (m ^^^ 0xFF)) ∧
    Reads (.sbcAbsy w) 0xF9 3 4 s (.absy w) (fun t m => added t (m ^^^ 0xFF)) ∧
    Reads (.sbcIndx b) 0xE1 2 6 s (.indx b) (fun t m => added t (m ^^^ 0xFF)) ∧
    Reads (.sbcIndy b) 0xF1 2 5 s (.indy b) (fun t m => added t (m ^^^ 0xFF))

/-- For every state and operand, each of the eight forms of AND, of ORA and of EOR has its row of
the opcode table and completes: A is A AND, OR or XOR the operand byte, Z and N are those of the
result, C, V, I, D, B and U stay, and every other field is that of the state the operand's bus
read leaves (R121, R122, R123). -/
def Obligations.LogicCombinesIntoA : Prop :=
  ∀ (s : State) (v b : Byte) (w : Word),
    Runs (.andImm v) 0x29 2 2 s (loadedA s (s.cpu.a &&& v)) ∧
    (Reads (.andZp b) 0x25 2 3 s (.zp b) fun t m => loadedA t (t.cpu.a &&& m)) ∧
    (Reads (.andZpx b) 0x35 2 4 s (.zpx b) fun t m => loadedA t (t.cpu.a &&& m)) ∧
    (Reads (.andAbs w) 0x2D 3 4 s (.abs w) fun t m => loadedA t (t.cpu.a &&& m)) ∧
    (Reads (.andAbsx w) 0x3D 3 4 s (.absx w) fun t m => loadedA t (t.cpu.a &&& m)) ∧
    (Reads (.andAbsy w) 0x39 3 4 s (.absy w) fun t m => loadedA t (t.cpu.a &&& m)) ∧
    (Reads (.andIndx b) 0x21 2 6 s (.indx b) fun t m => loadedA t (t.cpu.a &&& m)) ∧
    (Reads (.andIndy b) 0x31 2 5 s (.indy b) fun t m => loadedA t (t.cpu.a &&& m)) ∧
    Runs (.oraImm v) 0x09 2 2 s (loadedA s (s.cpu.a ||| v)) ∧
    (Reads (.oraZp b) 0x05 2 3 s (.zp b) fun t m => loadedA t (t.cpu.a ||| m)) ∧
    (Reads (.oraZpx b) 0x15 2 4 s (.zpx b) fun t m => loadedA t (t.cpu.a ||| m)) ∧
    (Reads (.oraAbs w) 0x0D 3 4 s (.abs w) fun t m => loadedA t (t.cpu.a ||| m)) ∧
    (Reads (.oraAbsx w) 0x1D 3 4 s (.absx w) fun t m => loadedA t (t.cpu.a ||| m)) ∧
    (Reads (.oraAbsy w) 0x19 3 4 s (.absy w) fun t m => loadedA t (t.cpu.a ||| m)) ∧
    (Reads (.oraIndx b) 0x01 2 6 s (.indx b) fun t m => loadedA t (t.cpu.a ||| m)) ∧
    (Reads (.oraIndy b) 0x11 2 5 s (.indy b) fun t m => loadedA t (t.cpu.a ||| m)) ∧
    Runs (.eorImm v) 0x49 2 2 s (loadedA s (s.cpu.a ^^^ v)) ∧
    (Reads (.eorZp b) 0x45 2 3 s (.zp b) fun t m => loadedA t (t.cpu.a ^^^ m)) ∧
    (Reads (.eorZpx b) 0x55 2 4 s (.zpx b) fun t m => loadedA t (t.cpu.a ^^^ m)) ∧
    (Reads (.eorAbs w) 0x4D 3 4 s (.abs w) fun t m => loadedA t (t.cpu.a ^^^ m)) ∧
    (Reads (.eorAbsx w) 0x5D 3 4 s (.absx w) fun t m => loadedA t (t.cpu.a ^^^ m)) ∧
    (Reads (.eorAbsy w) 0x59 3 4 s (.absy w) fun t m => loadedA t (t.cpu.a ^^^ m)) ∧
    (Reads (.eorIndx b) 0x41 2 6 s (.indx b) fun t m => loadedA t (t.cpu.a ^^^ m)) ∧
    (Reads (.eorIndy b) 0x51 2 5 s (.indy b) fun t m => loadedA t (t.cpu.a ^^^ m))

/-- For every state and operand, both forms of BIT have their row of the opcode table and
complete: Z is 1 exactly when A AND M is 0, N is bit 7 of M, V is bit 6 of M, C, I, D, B and U
stay, A is unchanged, and every other field is that of the state the bus read leaves (R124). -/
def Obligations.BitWritesFlagsOnly : Prop :=
  ∀ (s : State) (b : Byte) (w : Word),
    Reads (.bitZp b) 0x24 2 3 s (.zp b) tested ∧
    Reads (.bitAbs w) 0x2C 3 4 s (.abs w) tested

/-- For every state and operand, each form of CMP, CPX and CPY has its row of the opcode table and
completes: C is A (X, Y) ≥ M unsigned, Z is equality, N is bit 7 of the difference modulo 256; V,
I, D, B and U stay, no register is written, the incoming C is not read, and every other field is
that of the state the operand's bus read leaves (R125, R126, R127). -/
def Obligations.ComparesWriteFlagsOnly : Prop :=
  ∀ (s : State) (v b : Byte) (w : Word),
    Runs (.cmpImm v) 0xC9 2 2 s (compared s.cpu.a s v) ∧
    Reads (.cmpZp b) 0xC5 2 3 s (.zp b) (compared s.cpu.a) ∧
    Reads (.cmpZpx b) 0xD5 2 4 s (.zpx b) (compared s.cpu.a) ∧
    Reads (.cmpAbs w) 0xCD 3 4 s (.abs w) (compared s.cpu.a) ∧
    Reads (.cmpAbsx w) 0xDD 3 4 s (.absx w) (compared s.cpu.a) ∧
    Reads (.cmpAbsy w) 0xD9 3 4 s (.absy w) (compared s.cpu.a) ∧
    Reads (.cmpIndx b) 0xC1 2 6 s (.indx b) (compared s.cpu.a) ∧
    Reads (.cmpIndy b) 0xD1 2 5 s (.indy b) (compared s.cpu.a) ∧
    Runs (.cpxImm v) 0xE0 2 2 s (compared s.cpu.x s v) ∧
    Reads (.cpxZp b) 0xE4 2 3 s (.zp b) (compared s.cpu.x) ∧
    Reads (.cpxAbs w) 0xEC 3 4 s (.abs w) (compared s.cpu.x) ∧
    Runs (.cpyImm v) 0xC0 2 2 s (compared s.cpu.y s v) ∧
    Reads (.cpyZp b) 0xC4 2 3 s (.zp b) (compared s.cpu.y) ∧
    Reads (.cpyAbs w) 0xCC 3 4 s (.abs w) (compared s.cpu.y)

/-- For every state and operand, each form of INC and DEC has its row of the opcode table and
completes: one bus read of the effective address, then one bus write there of the value read plus
or minus 1 modulo 256; Z and N are those of the result, C and V and the other bits of P stay, and
nothing else changes but by those two accesses (R128, R129). -/
def Obligations.IncDecMemory : Prop :=
  ∀ (s : State) (b : Byte) (w : Word),
    (Updates (.incZp b) 0xE6 2 5 s (.zp b) fun m => stepped (m + 1) s) ∧
    (Updates (.incZpx b) 0xF6 2 6 s (.zpx b) fun m => stepped (m + 1) s) ∧
    (Updates (.incAbs w) 0xEE 3 6 s (.abs w) fun m => stepped (m + 1) s) ∧
    (Updates (.incAbsx w) 0xFE 3 7 s (.absx w) fun m => stepped (m + 1) s) ∧
    (Updates (.decZp b) 0xC6 2 5 s (.zp b) fun m => stepped (m - 1) s) ∧
    (Updates (.decZpx b) 0xD6 2 6 s (.zpx b) fun m => stepped (m - 1) s) ∧
    (Updates (.decAbs w) 0xCE 3 6 s (.abs w) fun m => stepped (m - 1) s) ∧
    (Updates (.decAbsx w) 0xDE 3 7 s (.absx w) fun m => stepped (m - 1) s)

/-- For every state and operand, each of the five forms of ASL, LSR, ROL and ROR has its row of
the opcode table and completes. ASL and ROL give twice the byte modulo 256, ROL with the old carry
in bit 0, and C is the old bit 7; LSR and ROR give half the byte, ROR with the old carry in bit 7,
and C is the old bit 0; Z and N are those of the result, V, I, D, B and U stay. The accumulator
form writes A; a memory form makes one bus read and one bus write of the effective address;
nothing else changes (R134, R135, R136, R137). -/
def Obligations.ShiftsMoveOneBitThroughCarry : Prop :=
  ∀ (s : State) (b : Byte) (w : Word),
    Runs .aslAcc 0x0A 1 2 s (rotatedA s (aslOf s s.cpu.a)) ∧
    Updates (.aslZp b) 0x06 2 5 s (.zp b) (aslOf s) ∧
    Updates (.aslZpx b) 0x16 2 6 s (.zpx b) (aslOf s) ∧
    Updates (.aslAbs w) 0x0E 3 6 s (.abs w) (aslOf s) ∧
    Updates (.aslAbsx w) 0x1E 3 7 s (.absx w) (aslOf s) ∧
    Runs .lsrAcc 0x4A 1 2 s (rotatedA s (lsrOf s s.cpu.a)) ∧
    Updates (.lsrZp b) 0x46 2 5 s (.zp b) (lsrOf s) ∧
    Updates (.lsrZpx b) 0x56 2 6 s (.zpx b) (lsrOf s) ∧
    Updates (.lsrAbs w) 0x4E 3 6 s (.abs w) (lsrOf s) ∧
    Updates (.lsrAbsx w) 0x5E 3 7 s (.absx w) (lsrOf s) ∧
    Runs .rolAcc 0x2A 1 2 s (rotatedA s (rolOf s s.cpu.a)) ∧
    Updates (.rolZp b) 0x26 2 5 s (.zp b) (rolOf s) ∧
    Updates (.rolZpx b) 0x36 2 6 s (.zpx b) (rolOf s) ∧
    Updates (.rolAbs w) 0x2E 3 6 s (.abs w) (rolOf s) ∧
    Updates (.rolAbsx w) 0x3E 3 7 s (.absx w) (rolOf s) ∧
    Runs .rorAcc 0x6A 1 2 s (rotatedA s (rorOf s s.cpu.a)) ∧
    Updates (.rorZp b) 0x66 2 5 s (.zp b) (rorOf s) ∧
    Updates (.rorZpx b) 0x76 2 6 s (.zpx b) (rorOf s) ∧
    Updates (.rorAbs w) 0x6E 3 6 s (.abs w) (rorOf s) ∧
    Updates (.rorAbsx w) 0x7E 3 7 s (.absx w) (rorOf s)

/-- For every state, whose PC has already been advanced past the branch, and every displacement
byte, each branch has its row of the opcode table (two bytes, two cycles taken or not) and
completes: when its flag has the tested value PC is PC plus the displacement as a two's-complement
number, modulo 65536, and otherwise PC stays; no flag and no other field changes (R138, R139,
R140, R141, R142, R143, R144, R145, R146, R101). -/
def Obligations.BranchesAddTheDisplacementWhenTaken : Prop :=
  ∀ (s : State) (d : Byte),
    Runs (.bcc d) 0x90 2 2 s (branched s (!s.cpu.p.getLsbD 0) d) ∧
    Runs (.bcs d) 0xB0 2 2 s (branched s (s.cpu.p.getLsbD 0) d) ∧
    Runs (.beq d) 0xF0 2 2 s (branched s (s.cpu.p.getLsbD 1) d) ∧
    Runs (.bmi d) 0x30 2 2 s (branched s (s.cpu.p.getLsbD 7) d) ∧
    Runs (.bne d) 0xD0 2 2 s (branched s (!s.cpu.p.getLsbD 1) d) ∧
    Runs (.bpl d) 0x10 2 2 s (branched s (!s.cpu.p.getLsbD 7) d) ∧
    Runs (.bvc d) 0x50 2 2 s (branched s (!s.cpu.p.getLsbD 6) d) ∧
    Runs (.bvs d) 0x70 2 2 s (branched s (s.cpu.p.getLsbD 6) d)

/-- For every state and operand, JMP absolute completes with PC the operand and nothing else
changed. JMP indirect completes after two bus reads, of the pointer address and then of the high
byte's address, with PC the two bytes, the first one low; the high byte's address is the pointer
plus 1 within the same page with JMP_IND_PAGE_WRAP, and the pointer plus 1 modulo 65536 without;
nothing else changes but by the two reads (R147, R98). -/
def Obligations.JmpGoesToItsTarget : Prop :=
  ∀ (s : State) (w : Word),
    Runs (.jmpAbs w) 0x4C 3 3 s { s with cpu := { s.cpu with pc := w } } ∧
    let hiAddr : Word :=
      if s.params.jmpIndPageWrap then (w &&& 0xFF00) ||| ((w + 1) &&& 0x00FF) else w + 1
    let s1 := s.touch w
    Runs (.jmpInd w) 0x6C 3 5 s
      { s1.touch hiAddr with cpu := { s.cpu with pc := ofHiLo (s1.peek hiAddr) (s.peek w) } }

/-- For every state, whose PC has already been advanced past the instruction: JSR writes the high
byte of PC - 1 to WRAM[$0100 + S] and the low byte to WRAM[$0100 + (S - 1)], takes 2 from S modulo
256 and sets PC to its operand; RTS sets PC to the word in the two stack cells above S, the lower
one its low byte, plus 1 modulo 65536, and adds 2 to S. Each has its row of the opcode table and
completes, and nothing else changes (R148, R149). -/
def Obligations.JsrAndRtsUseTheStack : Prop :=
  ∀ (s : State) (w : Word),
    Runs (.jsrAbs w) 0x20 3 6 s
      { s with
        cpu := { s.cpu with pc := w, s := s.cpu.s - 2 }
        wram := (s.wram.write (stackCell s 0) (hiByte (s.cpu.pc - 1))).write (stackCell s 1)
          (loByte (s.cpu.pc - 1)) } ∧
    Runs .rts 0x60 1 6 s
      { s with cpu := { s.cpu with pc := ofHiLo (onStack s 2) (onStack s 1) + 1, s := s.cpu.s + 2 } }

/-- For every state: PHA writes A, and PHP writes P with B and U forced to 1, to WRAM[$0100 + S]
and take 1 from S; PLA adds 1 to S, sets A to WRAM[$0100 + S] and Z and N from it; PLP adds 1 to S
and sets all eight bits of P to the byte pulled. Each has its row of the opcode table and
completes, and nothing else changes (R150, R151, R152, R153). -/
def Obligations.PushAndPullInstructions : Prop :=
  ∀ s : State,
    Runs .pha 0x48 1 3 s
      { s with
        cpu := { s.cpu with s := s.cpu.s - 1 }
        wram := s.wram.write (stackCell s 0) s.cpu.a } ∧
    Runs .php 0x08 1 3 s
      { s with
        cpu := { s.cpu with s := s.cpu.s - 1 }
        wram := s.wram.write (stackCell s 0) (s.cpu.p ||| 0x30) } ∧
    Runs .pla 0x68 1 4 s
      { s with cpu := { s.cpu with
          s := s.cpu.s + 1, a := onStack s 1, p := withZN s.cpu.p (onStack s 1) } } ∧
    Runs .plp 0x28 1 4 s { s with cpu := { s.cpu with s := s.cpu.s + 1, p := onStack s 1 } }

/-- For every state, each flag instruction has its row of the opcode table and completes with its
one flag bit of P cleared or set, the other seven bits of P kept and no other field changed; NOP
completes in the same state (R154, R155, R156, R157, R158, R159, R160, R163). -/
def Obligations.FlagInstructionsAndNop : Prop :=
  ∀ s : State,
    Runs .clc 0x18 1 2 s (withP s (bitOf s.cpu.p 0 false)) ∧
    Runs .cld 0xD8 1 2 s (withP s (bitOf s.cpu.p 3 false)) ∧
    Runs .cli 0x58 1 2 s (withP s (bitOf s.cpu.p 2 false)) ∧
    Runs .clv 0xB8 1 2 s (withP s (bitOf s.cpu.p 6 false)) ∧
    Runs .sec 0x38 1 2 s (withP s (bitOf s.cpu.p 0 true)) ∧
    Runs .sed 0xF8 1 2 s (withP s (bitOf s.cpu.p 3 true)) ∧
    Runs .sei 0x78 1 2 s (withP s (bitOf s.cpu.p 2 true)) ∧
    Runs .nop 0xEA 1 2 s s

/-- For every state in which PC has been advanced past a BRK at pc0: BRK has its row of the opcode
table and completes, whatever I is. It pushes pc0 plus BRK_RETURN_OFFSET (1 or 2) high byte first,
then P with B and U forced to 1, takes 3 from S modulo 256, sets I, and sets PC to the word at
$FFFE; D and the stored B and U, and everything else, stay (R161). -/
def Obligations.BrkEntersThroughItsVector : Prop :=
  ∀ (s : State) (pc0 : Word), s.cpu.pc = pc0 + 1 →
    Runs .brk 0x00 1 7 s
      (entered s (pc0 + match s.params.brkReturnOffset with | .one => 1 | .two => 2)
        (s.cpu.p ||| 0x30) 0xFFFE)

/-- For every state, RTI has its row of the opcode table and completes: P is the byte in the stack
cell above S, PC the word in the next two cells, the lower one its low byte, S is 3 higher modulo
256, and nothing else changes, the NMI guard and the pending NMI included (R162). -/
def Obligations.RtiRestoresPAndPc : Prop :=
  ∀ s : State,
    Runs .rti 0x40 1 6 s
      { s with cpu := { s.cpu with
          p := onStack s 1, pc := ofHiLo (onStack s 3) (onStack s 2), s := s.cpu.s + 3 } }

/-- For every state and operand, as numbers: zp is b; zp,X and zp,Y are (b + X) mod 256 and (b +
Y) mod 256; abs,X and abs,Y are (w + X) mod 65536 and (w + Y) mod 65536; (zp,X) is the word whose
low byte is the work-RAM byte at z = (b + X) mod 256 and whose high byte is the one at (z + 1) mod
256; (zp),Y is the word whose bytes are at b and (b + 1) mod 256, plus Y, mod 65536 (R92, R93,
R94, R96, R97, R99, R100). -/
def Obligations.EffectiveAddressesWrapAsTheModesSay : Prop :=
  ∀ (s : State) (b : Byte) (w : Word),
    (s.ea (.zp b)).toNat = b.toNat ∧
    (s.ea (.zpx b)).toNat = (b.toNat + s.cpu.x.toNat) % 256 ∧
    (s.ea (.zpy b)).toNat = (b.toNat + s.cpu.y.toNat) % 256 ∧
    s.ea (.abs w) = w ∧
    (s.ea (.absx w)).toNat = (w.toNat + s.cpu.x.toNat) % 65536 ∧
    (s.ea (.absy w)).toNat = (w.toNat + s.cpu.y.toNat) % 65536 ∧
    (s.ea (.indx b)).toNat =
      (s.wram.read ((b.toNat + s.cpu.x.toNat) % 256)).toNat +
        256 * (s.wram.read ((b.toNat + s.cpu.x.toNat + 1) % 256)).toNat ∧
    (s.ea (.indy b)).toNat =
      ((s.wram.read b.toNat).toNat + 256 * (s.wram.read ((b.toNat + 1) % 256)).toNat +
        s.cpu.y.toNat) % 65536

/-- For every a, b and P: the add gives (a + b + c) mod 256, C exactly when a + b + c > 255, Z
exactly when the result is 0, V exactly when the signed sum a + b + c is outside -128..127, and
leaves I, D, B and U; the subtract is the add of b XOR $FF, gives (a - b - (1 - c)) mod 256 and
sets C exactly when a ≥ b + (1 - c). The reading of V and the last clause are the spec's own
inferences (42_arithmetic_logic.md section 1 (R118 and its derived sentence),
42_arithmetic_logic.md section 2). -/
def Obligations.AddAndSubtractLaws : Prop :=
  ∀ p a b : Byte,
    let c := p.getLsbD 0
    let r := adc p a b
    let d := sbc p a b
    r.1.toNat = (a.toNat + b.toNat + c.toNat) % 256 ∧
    getFlag r.2 .c = decide (255 < a.toNat + b.toNat + c.toNat) ∧
    getFlag r.2 .z = decide (r.1 = 0) ∧
    (getFlag r.2 .v = true ↔
      a.toInt + b.toInt + c.toNat < -128 ∨ 127 < a.toInt + b.toInt + c.toNat) ∧
    (∀ f ∈ [Flag.i, .d, .b, .u], getFlag r.2 f = getFlag p f) ∧
    d = adc p a (b ^^^ 0xFF) ∧
    (d.1.toNat : Int) = ((a.toNat : Int) - b.toNat - (1 - c.toNat)) % 256 ∧
    (getFlag d.2 .c = true ↔ b.toNat + (1 - c.toNat) ≤ a.toNat)

/-- For every instruction other than CLD, SED, PLP, RTI, PHP and BRK, and every state: running it
with D replaced by any bit gives the same next state with D replaced by that bit
(42_arithmetic_logic.md section 1, 10_state.md section 3). -/
def Obligations.DecimalFlagNeverAltersArithmetic : Prop :=
  ∀ (i : Instr) (s t : State) (d : Bool),
    i.mnemonic ∉ [Mnemonic.cld, .sed, .plp, .rti, .php, .brk] → exec i s = .next t →
      exec i (withP s (bitOf s.cpu.p 3 d)) = .next (withP t (bitOf t.cpu.p 3 d))

/-- For every state and value: a push writes WRAM[$0100 + S] and takes 1 from S modulo 256; a pull
adds 1 to S modulo 256 and returns WRAM[$0100 + S]; a 16-bit push is a push of the high byte and
then of the low byte, and a 16-bit pull takes the low byte first; nothing else changes (R18). -/
def Obligations.StackPrimitives : Prop :=
  ∀ (s : State) (v : Byte) (w : Word),
    s.push v = { s with
      cpu := { s.cpu with s := s.cpu.s - 1 }
      wram := s.wram.write (0x100 + s.cpu.s.toNat) v } ∧
    s.pull = { s with cpu := { s.cpu with s := s.cpu.s + 1 } } ∧
    s.pulled = s.wram.read (0x100 + (s.cpu.s + 1).toNat) ∧
    s.push16 w = (s.push (hiByte w)).push (loByte w) ∧
    s.pulled16 = ofHiLo s.pull.pulled s.pulled ∧ s.pull16 = s.pull.pull

/-- For every state, wherever S stands, even where the frame wraps inside the stack page: RTS
after JSR comes back to the PC after the JSR with S as it was; RTI after BRK gives the pushed
return address, S as it was and P with B and U stored as 1; RTI after an NMI entry gives the
interrupted PC, S as it was, and P with B stored as 0 and U as 1; A, X, Y and every other field
are those before, and every byte of work RAM outside the stack cells that the call or entry wrote
(two cells for JSR, three for BRK and the NMI) reads as before (10_state.md section 1,
44_control_transfer.md section 2, 60_exceptions.md section 6). -/
def Obligations.ReturnsUndoCallsAndEntries : Prop :=
  ∀ (s : State) (w : Word),
    (∃ t u, exec (.jsrAbs w) s = .next t ∧ exec .rts t = .next u ∧
      u = { s with wram := t.wram } ∧
      ∀ a, a ∉ [stackCell s 0, stackCell s 1] → u.wram.read a = s.wram.read a) ∧
    (∃ t u, exec .brk s = .next t ∧ exec .rti t = .next u ∧
      u = { s with
        wram := t.wram
        cpu := { s.cpu with
          pc := s.cpu.pc - 1 + (match s.params.brkReturnOffset with | .one => 1 | .two => 2)
          p := s.cpu.p ||| 0x30 } } ∧
      ∀ a, a ∉ [stackCell s 0, stackCell s 1, stackCell s 2] →
        u.wram.read a = s.wram.read a) ∧
    ∃ u, exec .rti s.nmiEntry = .next u ∧
      u = { s with
        wram := s.nmiEntry.wram
        cpu := { s.cpu with p := (s.cpu.p &&& ~~~0x10) ||| 0x20 } } ∧
      ∀ a, a ∉ [stackCell s 0, stackCell s 1, stackCell s 2] →
        u.wram.read a = s.wram.read a

/-- For every instruction with every operand its encoding admits, and any bytes after it: decoding
its bytes gives that instruction and exactly those bytes; and the same instruction is read from
its bytes as one word numbered as the opcode table numbers it (30_encoding.md section 1,
30_encoding.md section 2, 30_encoding.md section 3). -/
def Obligations.DecodeOfEncodeIsTheInstruction : Prop :=
  ∀ (i : Instr) (rest : List Byte),
    decode (encode i ++ rest) = .ok (i, rest) ∧
    decodeTableWord (8 * i.length) (tableWord (encode i)) = some i

/-- For every list of bytes that decodes, to an instruction and the bytes left: the list is the
encoding of that instruction followed by those bytes (30_encoding.md section 3). -/
def Obligations.EncodeOfDecodeIsTheBytes : Prop :=
  ∀ (bs rest : List Byte) (i : Instr), decode bs = .ok (i, rest) → bs = encode i ++ rest

/-- For every byte: it has no instruction exactly when it is one of the 105 bytes of R81, whatever
bytes follow. In every live state whose opcode byte is one of them, a step leaves the state after
the three fetch reads with halted set and the stop signal InvalidOpcode with the byte and pc0;
where the byte is mapped but outside EXEC_SET the signal is Unimplemented; and where it is mapped
and in EXEC_SET the step answers a next state that is not halted. That a halt is a next state
which keeps its signal is the model's choice (log 6). With the default parameters no mapped byte
is outside EXEC_SET (30_encoding.md section 3 (R81, R82), 60_exceptions.md section 1 (R164,
R165)). -/
def Obligations.UnmappedAndLeftOutOpcodesHalt : Prop :=
  let unmapped : List Byte :=
    [0x02, 0x03, 0x04, 0x07, 0x0B, 0x0C, 0x0F, 0x12, 0x13, 0x14, 0x17, 0x1A, 0x1B, 0x1C, 0x1F,
     0x22, 0x23, 0x27, 0x2B, 0x2F, 0x32, 0x33, 0x34, 0x37, 0x3A, 0x3B, 0x3C, 0x3F, 0x42, 0x43,
     0x44, 0x47, 0x4B, 0x4F, 0x52] ++
    [0x53, 0x54, 0x57, 0x5A, 0x5B, 0x5C, 0x5F, 0x62, 0x63, 0x64, 0x67, 0x6B, 0x6F, 0x72, 0x73,
     0x74, 0x77, 0x7A, 0x7B, 0x7C, 0x7F, 0x80, 0x82, 0x83, 0x87, 0x89, 0x8B, 0x8F, 0x92, 0x93,
     0x97, 0x9B, 0x9C, 0x9E, 0x9F] ++
    [0xA3, 0xA7, 0xAB, 0xAF, 0xB2, 0xB3, 0xB7, 0xBB, 0xBF, 0xC2, 0xC3, 0xC7, 0xCB, 0xCF, 0xD2,
     0xD3, 0xD4, 0xD7, 0xDA, 0xDB, 0xDC, 0xDF, 0xE2, 0xE3, 0xE7, 0xEB, 0xEF, 0xF2, 0xF3, 0xF4,
     0xF7, 0xFA, 0xFB, 0xFC, 0xFF]
  (∀ op b1 b2 : Byte, decode3 op b1 b2 = none ↔ op ∈ unmapped) ∧
  (∀ s : State, s.Live →
    (s.fetch0 ∈ unmapped →
      step s = .next { s.afterFetch with
        halted := true, stopSignal := some (.invalidOpcode s.fetch0 s.cpu.pc) }) ∧
    (s.fetch0 ∉ unmapped → s.fetch0 ∈ s.params.unimplemented →
      step s = .next { s.afterFetch with
        halted := true, stopSignal := some (.unimplemented s.fetch0 s.cpu.pc) }) ∧
    (s.fetch0 ∉ unmapped → s.fetch0 ∉ s.params.unimplemented →
      ∃ t, step s = .next t ∧ t.halted = false)) ∧
  ∀ i : Instr, i.wellFormed Params.default = true

/-- The bytes A9 05, 8D 10 00, B6 20, 0A, D0 FE, 6C FF 02, 20 10 80, 91 20, 24 10 and 00, followed
by anything, decode to LDA #$05, STA $0010, LDX $20,Y, ASL A, BNE -2, JMP ($02FF), JSR $8010, STA
($20),Y, BIT $10 and BRK; the byte 02 is no instruction, and 8D 10 is too short (30_encoding.md
section 3, 30_encoding.md section 6). -/
def Obligations.SpecWordsDecodeToTheirInstructions : Prop :=
  (∀ rest, decode ([0xA9, 0x05] ++ rest) = .ok (.ldaImm 0x05, rest)) ∧
  (∀ rest, decode ([0x8D, 0x10, 0x00] ++ rest) = .ok (.staAbs 0x0010, rest)) ∧
  (∀ rest, decode ([0xB6, 0x20] ++ rest) = .ok (.ldxZpy 0x20, rest)) ∧
  (∀ rest, decode ([0x0A] ++ rest) = .ok (.aslAcc, rest)) ∧
  (∀ rest, decode ([0xD0, 0xFE] ++ rest) = .ok (.bne 0xFE, rest)) ∧
  (∀ rest, decode ([0x6C, 0xFF, 0x02] ++ rest) = .ok (.jmpInd 0x02FF, rest)) ∧
  (∀ rest, decode ([0x20, 0x10, 0x80] ++ rest) = .ok (.jsrAbs 0x8010, rest)) ∧
  (∀ rest, decode ([0x91, 0x20] ++ rest) = .ok (.staIndy 0x20, rest)) ∧
  (∀ rest, decode ([0x24, 0x10] ++ rest) = .ok (.bitZp 0x10, rest)) ∧
  (∀ rest, decode ([0x00] ++ rest) = .ok (.brk, rest)) ∧
  (∀ rest, decode ([0x02] ++ rest) = .error (.unmapped 0x02)) ∧
  decode [0x8D, 0x10] = .error (.truncated 0x8D)

/-- For every branch address pc and target: the assembler has a displacement byte exactly when
target - (pc + 2) is in -128..127 as a two's-complement number; that byte, and no other, is the
one whose written target is the target; and the branch target of a state whose PC has been
advanced past the branch is that address (30_encoding.md section 6 (R85), 40_addressing.md section
2 (R101)). -/
def Obligations.BranchDisplacementIsTheDistanceToTheTarget : Prop :=
  ∀ (pc target : Word) (d : Byte),
    ((relByte pc target).isSome = true ↔
      -128 ≤ (target - (pc + 2)).toInt ∧ (target - (pc + 2)).toInt ≤ 127) ∧
    (relByte pc target = some d ↔ relTarget pc d = target) ∧
    ∀ s : State, s.cpu.pc = pc + 2 → s.branchTarget d = relTarget pc d

/-- In every live state: the step reads PC, PC + 1 and PC + 2 in that order, always. Where the
first byte is unmapped it sets halted with the cause InvalidOpcode; where the instruction is not
well formed (its opcode is outside EXEC_SET) it sets halted with the cause Unimplemented; both
leave PC at pc0 and everything else as the three reads left it (that a halt is a next state, with
halted set and its cause kept in the stop signal, is the model's choice, log 6). Otherwise PC
becomes pc0 plus the instruction's length, exec of the decoded instruction runs there, and from
the next state it gives, the step's next state is what follows CYCLES of the opcode
(40_addressing.md section 1 (R87, R88), 60_exceptions.md section 1 (R164, R165), 60_exceptions.md
section 3 (R169)). -/
def Obligations.StepRunsTheDecodedInstruction : Prop :=
  ∀ s : State, s.Live →
    let pc := s.cpu.pc
    let s1 := s.touch pc
    let s2 := s1.touch (pc + 1)
    let s3 := s2.touch (pc + 2)
    let op := s.peek pc
    (∀ e, decode [op, s1.peek (pc + 1), s2.peek (pc + 2)] = .error e →
      step s = .next { s3 with halted := true, stopSignal := some (.invalidOpcode op pc) }) ∧
    ∀ i rest, decode [op, s1.peek (pc + 1), s2.peek (pc + 2)] = .ok (i, rest) →
      (i.wellFormed s.params = false →
        step s = .next { s3 with halted := true, stopSignal := some (.unimplemented op pc) }) ∧
      (i.wellFormed s.params = true → ∃ t,
        exec i { s3 with cpu := { s3.cpu with pc := pc + BitVec.ofNat 16 i.length } } = .next t ∧
        step s = .next (t.finish (cyclesOf s.params op)))

/-- For every state and cycle count n: what follows the instruction is 3n dots of the PPU, which
set nmiPending if one of them reports a request; then, if nmiPending is set, it is cleared, the
NMI is entered, and 21 more dots run, whose request is latched for the next iteration; if it is
not set, nothing more happens. A batch of n dots is n dots one after another, and reports a
request exactly when one of them does. A step is taken only while running is set and halted is not
(R169, R193). -/
def Obligations.FinishRunsTheBatchThenTheNmi : Prop :=
  (∀ (t : State) (n : Nat), t.finish n =
    let u : State := { t with
      ppu := t.ppu.stepN t.cart (3 * n)
      nmiPending := t.nmiPending || t.ppu.stepNRequest t.cart (3 * n) }
    if u.nmiPending then
      let e := State.nmiEntry { u with nmiPending := false }
      { e with
        ppu := e.ppu.stepN e.cart 21
        nmiPending := e.ppu.stepNRequest e.cart 21 }
    else u) ∧
  (∀ (c : Cart) (u : Ppu) (n : Nat),
    u.stepN c 0 = u ∧ u.stepN c (n + 1) = (u.tick c).stepN c n ∧
    (u.stepNRequest c n = true ↔ ∃ k < n, (u.stepN c k).tickRequest = true)) ∧
  ∀ s t : State, step s = .next t → s.running = true ∧ s.halted = false

/-- For every state: interrupt entry with a given return address and copy of P writes the high
byte of the return address to WRAM[$0100 + S], its low byte one below and the copy of P two below,
takes 3 from S modulo 256, sets I, loads PC from the vector, and changes nothing else; NMI entry
is that with PC, with P whose B is 0 and whose U is 1, and with the vector $FFFA, and costs 7
cycles (R172, R173). -/
def Obligations.NmiEntryPushesAndVectors : Prop :=
  (∀ (s : State) (ret : Word) (pushed : Byte), ∀ vec ∈ [nmiVector, brkVector],
    s.interruptEntry ret pushed vec = entered s ret pushed vec) ∧
  (∀ s : State, s.nmiEntry = entered s s.cpu.pc ((s.cpu.p &&& ~~~0x10) ||| 0x20) 0xFFFA) ∧
  nmiCycles = 7

/-- halted is false at reset. In every state with halted set, a step gives no next state and every
host action leaves halted set; the step names the fault of a stopped loop wherever running is
cleared, and that of a halted core where running is set (the two faults are the model's way to say
that no step runs, log 6 and log 7); and a step that sets halted is one whose opcode byte is
unmapped or outside EXEC_SET (10_state.md section 4 (R30), 60_exceptions.md section 1 (R165),
60_exceptions.md section 3 (R169)). -/
def Obligations.HaltedCoreIsTerminal : Prop :=
  State.reset.halted = false ∧
  (∀ s : State, s.halted = true →
    (s.running = true → step s = .fault .coreHalted) ∧
    ∀ h : HostAction, (s.hostAct h).halted = true) ∧
  (∀ s : State, s.running = false → step s = .fault .notRunning) ∧
  ∀ s t : State, s.halted = false → step s = .next t → t.halted = true →
    ∀ i, decode3 s.fetch0 s.fetch1 s.fetch2 = some i → i.opcode ∈ s.params.unimplemented

/-- For every instruction and every state, exec answers a next state: no arithmetic, alignment,
stack or access condition faults. In every live state the step answers a next state, and that
state is halted only where the opcode byte is unmapped or outside EXEC_SET (a halt being a next
state is the model's choice, log 6) (60_exceptions.md section 1, 60_exceptions.md section 3). -/
def Obligations.EveryInstructionCompletesAndLiveStepsGoOn : Prop :=
  (∀ (i : Instr) (s : State), ∃ t, exec i s = .next t ∧ t.halted = s.halted) ∧
  ∀ s : State, s.Live → ∃ t, step s = .next t ∧
    (t.halted = true ↔ ∀ i, s.fetched = some i → i.wellFormed s.params = false)

/-- From every state that meets the invariant: exec leaves the scanline and the dot alone; a step
that does not halt runs exec of the fetched instruction and then, from the state t0 it gives, 3
dots a cycle of CYCLES of its opcode, to a state u; where u has an NMI pending it is entered and
21 more dots run, and where it has none the step ends in u; the position moves by 3 times CYCLES,
plus 21 exactly where u has an NMI pending, modulo the 89342 dots of a frame; and the position
after n dots is n further, modulo 89342 (70_reset_and_hazards.md section 2,
70_reset_and_hazards.md section 3, 60_exceptions.md section 3). -/
def Obligations.StepAdvancesThePpuByItsCycles : Prop :=
  (∀ (i : Instr) (s t : State), exec i s = .next t →
    t.ppu.scanline = s.ppu.scanline ∧ t.ppu.dot = s.ppu.dot) ∧
  (∀ s t : State, s.Inv → step s = .next t → t.halted = false →
    ∃ (i : Instr) (t0 : State), s.fetched = some i ∧
      exec i (s.afterFetch.advancePc i) = .next t0 ∧
      let u := t0.ppuBatch (3 * cyclesOf s.params s.fetch0)
      t = (if u.nmiPending then
        State.ppuBatch (State.nmiEntry { u with nmiPending := false }) 21 else u) ∧
      t.ppu.position = (s.ppu.position + 3 * cyclesOf s.params s.fetch0 +
        if u.nmiPending then 21 else 0) % 89342) ∧
  ∀ (c : Cart) (u : Ppu) (n : Nat), u.Inv → (u.stepN c n).position = (u.position + n) % 89342

/-- From every state that meets the invariant, with legal cycle counts and no NMI pending, a step
gives a state with no NMI pending: a request is entered in the iteration that raised it, and the
21 dots of the entry cannot raise another (60_exceptions.md section 4, 60_exceptions.md section
3). -/
def Obligations.NoNmiIsPendingBetweenIterations : Prop :=
  ∀ s t : State, s.Inv → s.params.Legal → s.nmiPending = false → step s = .next t →
    t.nmiPending = false

/-- For any two states that differ at most in the stored B and U bits of P: if one steps to a next
state then so does the other, and the two next states differ at most in those bits; so no
register, flag, memory byte, PPU item or halt depends on them. It is the spec's own inference
(10_state.md section 3 (R27, its derived sentence)). -/
def Obligations.StoredBAndUAreNeverObserved : Prop :=
  ∀ s s' t : State, SameButBU s s' → step s = .next t →
    ∃ t', step s' = .next t' ∧ SameButBU t t'

/-- For every state and address: below $2000 the byte of work RAM at a & $07FF; below $4000 the
read of port a & 7; at $4016 the controller read; at every other address below $6000 the byte $00;
below $8000 save RAM when a cartridge is present and $00 when not; above that program ROM. Only
reads of port 2, port 7 and $4016 change anything: port 2 with STATUS_READ_CLEARS clears VBL and
both write latches, port 7 advances vaddr by 1 or 32 modulo 16384 and in buffered mode loads the
read buffer, and $4016 with the strobe off advances the button index (R53, R57, R64). -/
def Obligations.BusReadDecoder : Prop :=
  ∀ (s : State) (a : Word),
    (a.toNat < 0x2000 → s.peek a = s.wram.read (a.toNat % 0x800) ∧ s.touch a = s) ∧
    (0x2000 ≤ a.toNat → a.toNat < 0x4000 →
      s.peek a = s.ppu.portPeek s.params s.cart (portOf a) ∧
      (a.toNat % 8 ≠ 2 → a.toNat % 8 ≠ 7 → s.touch a = s) ∧
      (a.toNat % 8 = 2 → s.touch a = { s with ppu :=
        if s.params.statusReadClears then
          { s.ppu with vbl := false, scrollLatch := false, addrLatch := false }
        else s.ppu }) ∧
      (a.toNat % 8 = 7 → s.touch a = { s with ppu := { s.ppu with
        vaddr := s.ppu.vaddr + if s.ppu.ctrl.getLsbD 2 then 32 else 1
        readBuf := match s.params.ppuDataMode with
          | .direct => s.ppu.readBuf
          | .buffered => s.ppu.read s.cart (if 0x3F00 ≤ s.ppu.vaddr.toNat then
              (s.ppu.vaddr &&& 0x2FFF).toNat else s.ppu.vaddr.toNat) } })) ∧
    (a.toNat = 0x4016 → s.peek a = s.ctrl.peek ∧ s.touch a = { s with ctrl := { s.ctrl with
        index := if s.ctrl.strobe = false ∧ s.ctrl.index < 8 then s.ctrl.index + 1
          else s.ctrl.index } }) ∧
    (0x4000 ≤ a.toNat → a.toNat < 0x6000 → a.toNat ≠ 0x4016 → s.peek a = 0 ∧ s.touch a = s) ∧
    (0x6000 ≤ a.toNat → a.toNat < 0x8000 → s.touch a = s ∧
      s.peek a = if s.cart.present then s.cart.sram.read (a.toNat - 0x6000) else 0) ∧
    (0x8000 ≤ a.toNat → s.peek a = s.cart.prgRead a ∧ s.touch a = s)

/-- For every state, address and byte: below $2000 the byte goes to work RAM at a & $07FF; below
$4000 it is a write of port a & 7; at $4014 OAM DMA of that page runs; at $4016 bit 0 sets the
strobe and a strobe of 1 zeroes the button index; every other write below $6000 is ignored; below
$8000 it goes to save RAM when a cartridge is present and is ignored when not; above that it is
ignored (R54). -/
def Obligations.BusWriteDecoder : Prop :=
  ∀ (s : State) (a : Word) (v : Byte),
    (a.toNat < 0x2000 → s.memWrite a v = { s with wram := s.wram.write (a.toNat % 0x800) v }) ∧
    (0x2000 ≤ a.toNat → a.toNat < 0x4000 → s.memWrite a v = s.portWrite (portOf a) v) ∧
    (a.toNat = 0x4014 → s.memWrite a v = s.oamDma v) ∧
    (a.toNat = 0x4016 → s.memWrite a v = { s with ctrl := { s.ctrl with
      strobe := v.getLsbD 0, index := if v.getLsbD 0 then 0 else s.ctrl.index } }) ∧
    (0x4000 ≤ a.toNat → a.toNat < 0x6000 → a.toNat ≠ 0x4014 → a.toNat ≠ 0x4016 →
      s.memWrite a v = s) ∧
    (0x6000 ≤ a.toNat → a.toNat < 0x8000 → s.memWrite a v =
      if s.cart.present then
        { s with cart := { s.cart with sram := s.cart.sram.write (a.toNat - 0x6000) v } }
      else s) ∧
    (0x8000 ≤ a.toNat → s.memWrite a v = s)

/-- For every state, byte and addresses below $2000: a read of b after a write of v to a gives v
exactly when a and b are the same modulo $0800, and otherwise what b read before. An address from
$2000 to $3FFF is port 0 PPUCTRL, 1 PPUMASK, 2 PPUSTATUS, 3 OAMADDR, 4 OAMDATA, 5 PPUSCROLL, 6
PPUADDR or 7 PPUDATA by its value modulo 8, and the bus read, its effect and the bus write there
are those of that port; for two such addresses that are the same modulo 8, the write, the read and
the read's effect are the same (R55, R56). -/
def Obligations.WorkRamAndPortsAreMirrored : Prop :=
  (∀ (s : State) (a b : Word) (v : Byte), a.toNat < 0x2000 → b.toNat < 0x2000 →
    (s.memWrite a v).peek b = if a.toNat % 0x800 = b.toNat % 0x800 then v else s.peek b) ∧
  (∀ (s : State) (a : Word) (v : Byte), 0x2000 ≤ a.toNat → a.toNat < 0x4000 →
    ∀ rp ∈ [(0, Port.ctrl), (1, .mask), (2, .status), (3, .oamAddr), (4, .oamData), (5, .scroll),
        (6, .addr), (7, .data)], a.toNat % 8 = rp.1 →
      portOf a = rp.2 ∧ s.memWrite a v = s.portWrite rp.2 v ∧
      s.peek a = s.ppu.portPeek s.params s.cart rp.2 ∧
      s.touch a = { s with ppu := s.ppu.portTouch s.params s.cart rp.2 }) ∧
  ∀ (s : State) (a b : Word) (v : Byte), 0x2000 ≤ a.toNat → a.toNat < 0x4000 →
    0x2000 ≤ b.toNat → b.toNat < 0x4000 → a.toNat % 8 = b.toNat % 8 →
    s.memWrite a v = s.memWrite b v ∧ s.peek a = s.peek b ∧ s.touch a = s.touch b

/-- For every instruction, every state and the next state exec gives, and every address outside
the PPU ports and $4016: unless it names the cell of one of the addresses the instruction stores
to (the effective address of a store or read-modify-write form in the state the operand is taken
in, the stack cells of JSR, PHA, PHP and BRK), a bus read of it returns what it returned before. A
form that stores nothing changes no such byte (20_memory.md section 2, 20_memory.md section 6,
40_addressing.md section 3). -/
def Obligations.MemoryChangesOnlyWhereAnInstructionStores : Prop :=
  ∀ (i : Instr) (s t : State), exec i s = .next t → ∀ a : Word, Plain a →
    (∀ b ∈ s.stores i, ¬ SameCell a b) → t.peek a = s.peek a

/-- For every instruction, every state and the next state exec gives: A changes only by its
writers (and the accumulator mode of the shifts), X, Y, S and PC only by theirs, C, Z, I, D, V and
N only by the instructions listed for each flag, and the stored B and U only by PLP and RTI;
halted, the stop signal, the pending NMI, running and the parameters never change by an
instruction (10_state.md section 1, 10_state.md section 2, 10_state.md section 3). -/
def Obligations.RegistersAndFlagsChangeOnlyByTheirWriters : Prop :=
  ∀ (i : Instr) (s t : State), exec i s = .next t →
    let m := i.mnemonic
    (m ∉ [Mnemonic.lda, .txa, .tya, .pla, .adc, .sbc, .and, .ora, .eor] → i.mode ≠ .acc → t.cpu.a = s.cpu.a) ∧
    (m ∉ [Mnemonic.ldx, .tax, .tsx, .inx, .dex] → t.cpu.x = s.cpu.x) ∧
    (m ∉ [Mnemonic.ldy, .tay, .iny, .dey] → t.cpu.y = s.cpu.y) ∧
    (m ∉ [Mnemonic.txs, .pha, .php, .pla, .plp, .jsr, .rts, .brk, .rti] → t.cpu.s = s.cpu.s) ∧
    (m ∉ [Mnemonic.bcc, .bcs, .beq, .bmi, .bne, .bpl, .bvc, .bvs, .jmp, .jsr, .rts, .brk, .rti] →
      t.cpu.pc = s.cpu.pc) ∧
    (m ∉ [Mnemonic.adc, .sbc, .cmp, .cpx, .cpy, .asl, .lsr, .rol, .ror, .clc, .sec, .plp, .rti] →
      t.flag .c = s.flag .c) ∧
    (m ∉ [Mnemonic.sei, .cli, .plp, .rti, .brk] → t.flag .i = s.flag .i) ∧
    (m ∉ [Mnemonic.sed, .cld, .plp, .rti] → t.flag .d = s.flag .d) ∧
    (m ∉ [Mnemonic.adc, .sbc, .bit, .clv, .plp, .rti] → t.flag .v = s.flag .v) ∧
    (m ∉ [Mnemonic.plp, .rti] → t.flag .b = s.flag .b ∧ t.flag .u = s.flag .u) ∧
    (m ∉ [Mnemonic.lda, .ldx, .ldy, .tax, .tay, .txa, .tya, .tsx, .pla, .adc, .sbc, .and, .ora, .eor, .inc,
      .dec, .inx, .iny, .dex, .dey, .asl, .lsr, .rol, .ror, .cmp, .cpx, .cpy, .bit, .plp, .rti] →
      t.flag .z = s.flag .z ∧ t.flag .n = s.flag .n) ∧
    t.halted = s.halted ∧ t.stopSignal = s.stopSignal ∧ t.nmiPending = s.nmiPending ∧
    t.running = s.running ∧ t.params = s.params

/-- For every state and every page, $20 to $3F and $40 included: a write of the page number to
$4014 leaves the state after 256 copies in ascending order, copy i being a bus read of offset i of
the page in the state the copies before it left, whose byte goes to OAM[(OAMADDR + i) mod 256] and
whose side effects happen. Afterwards OAM at (OAMADDR + i) mod 256 is the byte the read of copy i
returned, for every i below 256, and every field but OAM is as the 256 reads alone leave it,
OAMADDR included. Reading page $40 returns $00 but for the controller's byte at offset $16, and
moves only the controller, as one read of $4016 does. A page outside $20 to $40 has no side
effect: OAM receives its bytes as they were before the write, and every other field stays
(60_exceptions.md section 9 (R191)). -/
def Obligations.OamDmaCopiesAPage : Prop :=
  ∀ (s : State) (v : Byte),
    s.memWrite 0x4014 v = copied v s 256 ∧
    (∀ i < 256, (copied v s 256).ppu.oam.read ((s.ppu.oamAddr.toNat + i) % 256) =
      (copied v s i).peek (ofHiLo v (BitVec.ofNat 8 i))) ∧
    (∃ oam : Memory, s.memWrite 0x4014 v =
      { readPage v s 256 with ppu := { (readPage v s 256).ppu with oam := oam } }) ∧
    (v = 0x40 → readPage v s 256 = s.touch 0x4016 ∧
      ∀ i < 256, (copied v s i).peek (ofHiLo v (BitVec.ofNat 8 i)) =
        if i = 0x16 then s.ctrl.peek else 0) ∧
    (v.toNat < 0x20 ∨ 0x40 < v.toNat → readPage v s 256 = s ∧
      ∀ i < 256, (copied v s i).peek (ofHiLo v (BitVec.ofNat 8 i)) =
        s.peek (ofHiLo v (BitVec.ofNat 8 i)))

/-- For every state and byte: a write of $4016 sets the strobe to bit 0 and, when that is 1,
zeroes the index. With the strobe on, the read after any number of reads gives button A, and the
index stays. With the strobe off and the index at k, the read after n more reads gives button k +
n as 0 or 1 while k + n < 8 and $01 after that. The buttons are ordered A, B, Select, Start, Up,
Down, Left, Right, and $4017 reads $00 (R192). -/
def Obligations.ControllerShiftsOutTheButtons : Prop :=
  ∀ (s : State) (v : Byte) (n : Nat),
    (s.memWrite 0x4016 v).ctrl.strobe = v.getLsbD 0 ∧
    (s.memWrite 0x4016 v).ctrl.index = (if v.getLsbD 0 then 0 else s.ctrl.index) ∧
    (s.ctrl.strobe = true → (readTimes 0x4016 n s).peek 0x4016 = byteOfBool s.ctrl.buttons.a ∧
      (readTimes 0x4016 n s).ctrl.index = s.ctrl.index) ∧
    (s.ctrl.strobe = false → s.ctrl.index ≤ 8 →
      (readTimes 0x4016 n s).peek 0x4016 =
        match s.ctrl.index + n with
        | 0 => byteOfBool s.ctrl.buttons.a
        | 1 => byteOfBool s.ctrl.buttons.b
        | 2 => byteOfBool s.ctrl.buttons.select
        | 3 => byteOfBool s.ctrl.buttons.start
        | 4 => byteOfBool s.ctrl.buttons.up
        | 5 => byteOfBool s.ctrl.buttons.down
        | 6 => byteOfBool s.ctrl.buttons.left
        | 7 => byteOfBool s.ctrl.buttons.right
        | _ => 1) ∧
    s.peek 0x4017 = 0

/-- For every state and byte written to port r: lastWrite is the byte, the latch of ports 0, 1, 3,
5 and 6 is the byte, and: port 0 sets PPUCTRL, port 1 PPUMASK, port 2 nothing further, port 3
OAMADDR, port 4 writes OAM at OAMADDR and adds 1 to OAMADDR modulo 256, port 5 sets scrollX or
scrollY (mod 240) and toggles its latch, port 6 sets addrHi or the 14-bit vaddr and toggles its
own latch, port 7 writes PPU memory at vaddr and adds 1 or 32 to vaddr modulo 16384; nothing else
changes. Reads of ports 3 and 4 are the last byte written to port 3 and OAM at OAMADDR, and reads
of ports 5 and 6 their last byte written (R182, R186, R187, R188, R189). -/
def Obligations.PortWritesDoWhatEachPortSays : Prop :=
  ∀ (s : State) (v : Byte),
    let u := { s.ppu with lastWrite := v }
    s.portWrite .ctrl v = { s with ppu := { u with ctrl := v, latch := { u.latch with ctrl := v } } } ∧
    s.portWrite .mask v = { s with ppu := { u with mask := v, latch := { u.latch with mask := v } } } ∧
    s.portWrite .status v = { s with ppu := u } ∧
    s.portWrite .oamAddr v =
      { s with ppu := { u with oamAddr := v, latch := { u.latch with oamAddr := v } } } ∧
    s.portWrite .oamData v =
      { s with ppu := { u with oam := u.oam.write u.oamAddr.toNat v, oamAddr := u.oamAddr + 1 } } ∧
    s.portWrite .scroll v =
      { s with ppu := { u with
          latch := { u.latch with scroll := v }
          scrollX := if u.scrollLatch then u.scrollX else v
          scrollY := if u.scrollLatch then BitVec.ofNat 8 (v.toNat % 240) else u.scrollY
          scrollLatch := !u.scrollLatch } } ∧
    s.portWrite .addr v =
      { s with ppu := { u with
          latch := { u.latch with addr := v }
          addrHi := if u.addrLatch then u.addrHi else v
          vaddr := if u.addrLatch then BitVec.ofNat 14 (256 * u.addrHi.toNat + v.toNat) else u.vaddr
          addrLatch := !u.addrLatch } } ∧
    s.portWrite .data v =
      { s with
        cart := Ppu.writeCart s.cart s.ppu.vaddr.toNat v
        ppu := { u.writeOwn s.cart s.ppu.vaddr.toNat v with
          vaddr := s.ppu.vaddr + if s.ppu.ctrl.getLsbD 2 then 32 else 1 } } ∧
    s.ppu.portPeek s.params s.cart .oamAddr = s.ppu.latch.oamAddr ∧
    s.ppu.portPeek s.params s.cart .oamData = s.ppu.oam.read s.ppu.oamAddr.toNat ∧
    s.ppu.portPeek s.params s.cart .scroll = s.ppu.latch.scroll ∧
    s.ppu.portPeek s.params s.cart .addr = s.ppu.latch.addr

/-- For every state: ports 0, 1, 3, 5 and 6 read their latch, port 4 reads OAM at OAMADDR; port 2
reads VBL, S0 and OVF in bits 7, 6 and 5 over the low five bits of lastWrite, and its read clears
VBL and both write latches exactly with STATUS_READ_CLEARS; port 7 reads PPU memory at vaddr
directly, or in buffered mode the buffer below $3F00 and PPU memory from $3F00 on, the buffer
being loaded from vaddr, or from vaddr & $2FFF from $3F00 on; every read of port 7 adds 1 or 32 to
vaddr; a write of port 2 changes only lastWrite, and a write of port 7 is a PPU memory write at
vaddr and the same increment (R181, R185, R190). -/
def Obligations.StatusAndDataPortReads : Prop :=
  ∀ (s : State) (v : Byte),
    let u := s.ppu
    let inc : VAddr := if u.ctrl.getLsbD 2 then 32 else 1
    let peek := u.portPeek s.params s.cart
    let touch := u.portTouch s.params s.cart
    peek .ctrl = u.latch.ctrl ∧ peek .mask = u.latch.mask ∧ peek .oamAddr = u.latch.oamAddr ∧
    peek .oamData = u.oam.read u.oamAddr.toNat ∧ peek .scroll = u.latch.scroll ∧
    peek .addr = u.latch.addr ∧
    (peek .status).toNat = 128 * u.vbl.toNat + 64 * u.s0.toNat + 32 * u.ovf.toNat +
      u.lastWrite.toNat % 32 ∧
    touch .status = (if s.params.statusReadClears then
      { u with vbl := false, scrollLatch := false, addrLatch := false } else u) ∧
    (s.params.ppuDataMode = .direct →
      peek .data = u.read s.cart u.vaddr.toNat ∧ touch .data = { u with vaddr := u.vaddr + inc }) ∧
    (s.params.ppuDataMode = .buffered → 0x3F00 ≤ u.vaddr.toNat →
      peek .data = u.read s.cart u.vaddr.toNat ∧
      touch .data = { u with
        vaddr := u.vaddr + inc, readBuf := u.read s.cart (u.vaddr &&& 0x2FFF).toNat }) ∧
    (s.params.ppuDataMode = .buffered → u.vaddr.toNat < 0x3F00 →
      peek .data = u.readBuf ∧
      touch .data = { u with vaddr := u.vaddr + inc, readBuf := u.read s.cart u.vaddr.toNat }) ∧
    s.portWrite .status v = { s with ppu := { u with lastWrite := v } } ∧
    s.portWrite .data v =
      { s with
        cart := Ppu.writeCart s.cart u.vaddr.toNat v
        ppu := { Ppu.writeOwn s.cart { u with lastWrite := v } u.vaddr.toNat v with
          vaddr := u.vaddr + inc } }

/-- For every cartridge and PPU, byte and 14-bit addresses a and b, with a read and a write at any
address being those at the address modulo 16384: after a write at a nametable address, a read at a
nametable address gives the byte exactly when the two name the same offset of the same physical
table (tables 0,2 and 1,3 shared with mirrorFlag 1, tables 0,1 and 2,3 with 0; $3000-$3EFF mirrors
$2000-$2EFF), and is otherwise as before; after a write at a palette address, a read at a palette
address gives the byte exactly when the two are equal modulo 32 or both are multiples of 4, and is
otherwise as before; a write in one region leaves every read in another as it was; below $2000 a
read is that of the cartridge's character data (R65, R67, R68). -/
def Obligations.PpuMemoryReadAfterWrite : Prop :=
  ∀ (c : Cart) (u : Ppu) (a b : Nat) (v : Byte),
    u.read c a = u.read c (a % 0x4000) ∧ u.writeOwn c a v = u.writeOwn c (a % 0x4000) v ∧
    Ppu.writeCart c a v = Ppu.writeCart c (a % 0x4000) v ∧
    (a < 0x4000 → b < 0x4000 →
      let w := u.writeOwn c a v
      let table (x : Nat) : Nat :=
        let t := (x - 0x2000) / 0x400 % 4
        if c.mirrorFlag then t % 2 else t / 2
      (b < 0x2000 → w.read c b = c.chrRead b) ∧
      (a < 0x2000 → w = u ∧ Ppu.writeCart c a v = c.chrWrite a v) ∧
      (0x2000 ≤ a → Ppu.writeCart c a v = c) ∧
      (0x2000 ≤ a → a < 0x3F00 → 0x2000 ≤ b → b < 0x3F00 →
        w.read c b = if table a = table b ∧ a % 0x400 = b % 0x400 then v else u.read c b) ∧
      (0x3F00 ≤ a → 0x3F00 ≤ b →
        w.read c b = if a % 32 = b % 32 ∨ (a % 4 = 0 ∧ b % 4 = 0) then v else u.read c b) ∧
      ((a < 0x3F00 ∧ 0x3F00 ≤ b) ∨ (0x3F00 ≤ a ∧ b < 0x3F00) → w.read c b = u.read c b))

/-- For every image given as a byte list, and every RAM contents: an absent image or one shorter
than 16 bytes leaves the cartridge-less store, where program and character reads give $00,
character and save-RAM writes are dropped, cartPresent and the five header fields of the reset
table are 0, and the two RAMs hold the given contents. Any other image is present with its header
fields from bytes 4 to 7; a program read at a gives byte 16 (+ 512 with a trainer) + off of the
image, off being a - $8000, modulo 16384 with one bank, or $00 when off is past the PRG banks or
the byte past the image; a character read gives CHR RAM when byte 5 is 0, else the byte at the
start of the CHR data, or $00 past the image; a character write changes only CHR RAM and only when
byte 5 is 0 (R59, R60, R61, R66). -/
def Obligations.CartridgeReadsAndHeader : Prop :=
  ∀ (bs : List Byte) (sram chr : Memory) (a : Word) (x : Nat) (v : Byte), 0x8000 ≤ a.toNat → x < 0x2000 →
    (∀ im ∈ [none, some (Image.ofBytes bs)], im = none ∨ bs.length < 16 →
      let c := insertCartridge im sram chr
      c.present = false ∧ c.prgBanks = 0 ∧ c.chrBanks = 0 ∧ c.battery = false ∧
      c.trainer = false ∧ c.sram = sram ∧ c.chrRam = chr ∧
      c.prgRead a = 0 ∧ c.chrRead x = 0 ∧ c.chrWrite x v = c ∧
      c.sramRead x = 0 ∧ c.sramWrite x v = c ∧ c.mirrorFlag = false) ∧
    (16 ≤ bs.length →
      let c := insertCartridge (some (Image.ofBytes bs)) sram chr
      let byte (k : Nat) : Byte := bs.getD k 0
      let prgStart := 16 + if (byte 6).getLsbD 2 then 512 else 0
      let off := if byte 4 = 1 then (a.toNat - 0x8000) % 0x4000 else a.toNat - 0x8000
      c.present = true ∧ c.prgBanks = byte 4 ∧ c.chrBanks = byte 5 ∧
      c.mirrorFlag = (byte 6).getLsbD 0 ∧ c.battery = (byte 6).getLsbD 1 ∧
      c.trainer = (byte 6).getLsbD 2 ∧
      c.mapper = ((byte 7) &&& 0xF0) ||| ((byte 6) >>> 4) ∧
      c.prgRead a = (if 16384 * (byte 4).toNat ≤ off then 0 else byte (prgStart + off)) ∧
      c.chrRead x = (if byte 5 = 0 then chr.read x
        else byte (prgStart + 16384 * (byte 4).toNat + x)) ∧
      c.chrWrite x v = if byte 5 = 0 then { c with chrRam := chr.write x v } else c)

/-- For any two memories in their canonical form (addresses rising, no entry equal to what an
unlisted address reads as; the representation is the model's choice, log 2 and log 11): if every
address reads the same in both, they are equal (20_memory.md section 2, 10_state.md section 5). -/
def Obligations.CanonicalMemoriesWithEqualReadsAreEqual : Prop :=
  ∀ (n k : Nat) (m m' : Memory), Memory.wf n m → Memory.wf k m' → (∀ a, m.read a = m'.read a) → m = m'

/-- For every cartridge and PPU whose position is in range: on a visible line a dot from 1 to 256
runs the background fetch, dot 257 the sprite evaluation and then the (empty) first sprite step,
dots 258 to 320 the sprite step; (241, 0) enters vblank and (261, 0) clears the flags; at every
other position nothing happens; then the dot advances, to 0 of the next line of 262 after 340.
Only the dot at (241, 0) can report an NMI request (R194, R195). -/
def Obligations.PpuDotActionsByPosition : Prop :=
  ∀ (c : Cart) (u : Ppu), u.scanline < 262 → u.dot < 341 →
    let s := u.scanline
    let d := u.dot
    (∀ v : Ppu, v.advance = { v with
      dot := if v.dot + 1 = 341 then 0 else v.dot + 1
      scanline := if v.dot + 1 = 341 then (v.scanline + 1) % 262 else v.scanline }) ∧
    (s ≤ 239 → 1 ≤ d → d ≤ 256 → u.tick c = (u.bgFetchStep c s d).advance) ∧
    (s ≤ 239 → d = 257 → u.tick c = ((u.spriteEval s).spriteFetchStep c s d).advance) ∧
    (s ≤ 239 → 258 ≤ d → d ≤ 320 → u.tick c = (u.spriteFetchStep c s d).advance) ∧
    (s = 241 → d = 0 → u.tick c = u.enterVblank.advance ∧ u.tickRequest = u.nmiRequest) ∧
    (s = 261 → d = 0 → u.tick c = u.preRender.advance) ∧
    (Idle s d → u.tick c = u.advance) ∧
    (¬ (s = 241 ∧ d = 0) → u.tickRequest = false)

/-- For every PPU: vblank entry sets VBL, zeroes selCount, copies FB to FRAME, sets frameReady and
the NMI guard, and asks for an NMI exactly when PPUCTRL bit 7 is 1 and the guard was 0; the
pre-render clear clears VBL, S0, OVF and the guard; nothing else changes (R201, R202). -/
def Obligations.VblankEntryAndPreRenderClear : Prop :=
  ∀ u : Ppu,
    u.enterVblank =
      { u with vbl := true, selCount := 0, frame := u.fb, frameReady := true, nmiGuard := true } ∧
    u.nmiRequest = decide (u.ctrl.getLsbD 7 = true ∧ u.nmiGuard = false) ∧
    u.preRender = { u with vbl := false, s0 := false, ovf := false, nmiGuard := false }

/-- For every PPU that meets the invariant: a dot reports a request exactly at (241, 0) with
PPUCTRL bit 7 set; the guard is then set whether or not it reports, and (261, 0) clears it; of the
89342 dots of a frame, from wherever it starts, exactly one reports a request when PPUCTRL bit 7
is 1 and none when it is 0; and inside vblank no write of PPUCTRL brings a request before the next
vblank entry, however many dots run up to it (R168). -/
def Obligations.OneNmiRequestPerVblank : Prop :=
  ∀ (c : Cart) (u : Ppu), u.Inv →
    (u.tickRequest = true ↔ u.scanline = 241 ∧ u.dot = 0 ∧ u.ctrl.getLsbD 7 = true) ∧
    (u.scanline = 241 → u.dot = 0 → u.nmiGuard = false ∧ (u.tick c).nmiGuard = true) ∧
    (u.scanline = 261 → u.dot = 0 → (u.tick c).nmiGuard = false) ∧
    ((List.range 89342).countP (fun k => (u.stepN c k).tickRequest) =
      if u.ctrl.getLsbD 7 then 1 else 0) ∧
    (InVblank u.position → ∀ (v : Byte) (n : Nat), u.position + n ≤ 89342 + 341 * 241 →
      (u.portWrite c .ctrl v).stepNRequest c n = false)

/-- For every visible line s and tile column k below 32: dot 8k + 2 loads the nametable byte from
the base of PPUCTRL bits 1:0 plus 32 (s / 8) + k, dot 8k + 4 the attribute byte from base + $3C0 +
8 (s / 32) + k / 4, dot 8k + 6 the low plane from the table of PPUCTRL bit 4 plus 16 times the
nametable byte plus s mod 8, dot 8k + 8 the high plane 8 bytes further, and then composites column
k; the other four dots do nothing (R196). -/
def Obligations.BackgroundFetchesFourBytesPerTile : Prop :=
  ∀ (c : Cart) (u : Ppu) (s k : Nat), s < 240 → k < 32 →
    let ntBase := 0x2000 + 0x400 * (u.ctrl.toNat % 4)
    let row := 0x1000 * (u.ctrl.getLsbD 4).toNat + 16 * u.ntByte.toNat + s % 8
    u.bgFetchStep c s (8 * k + 2) = { u with ntByte := u.read c (ntBase + 32 * (s / 8) + k) } ∧
    u.bgFetchStep c s (8 * k + 4) =
      { u with atByte := u.read c (ntBase + 0x3C0 + 8 * (s / 32) + k / 4) } ∧
    u.bgFetchStep c s (8 * k + 6) = { u with ptLow := u.read c row } ∧
    u.bgFetchStep c s (8 * k + 8) =
      Ppu.bgComposite { u with ptHigh := u.read c (row + 8) } s k ∧
    ∀ j ∈ [1, 3, 5, 7], u.bgFetchStep c s (8 * k + j) = u

/-- For every PPU, line s and tile column k below 32: after the composite, each of the eight
columns x = 8k + i has as pixel value p the two planes' bits 7 - i (0 with PPUMASK.BG off),
bgOpaque[x] is p ≠ 0, and FB[s][x] is the low 6 bits of the backdrop when p is 0 and of palette
entry 4g + p otherwise, g being the attribute byte's two bits for the quadrant of (s, k); every
other pixel, every other bgOpaque bit and every other field stay (R197). -/
def Obligations.BackgroundCompositePaintsEightPixels : Prop :=
  ∀ (u : Ppu) (s k : Nat), s < 240 → k < 32 →
    let v := u.bgComposite s k
    let g := u.atByte.toNat / 2 ^ (4 * (s / 16 % 2) + 2 * (k / 2 % 2)) % 4
    let p (i : Nat) : Nat := if u.mask.getLsbD 3 then
      2 * (u.ptHigh.getLsbD (7 - i)).toNat + (u.ptLow.getLsbD (7 - i)).toNat else 0
    v = { u with fb := v.fb, bgOpaque := v.bgOpaque } ∧
    (∀ i < 8, v.bgOpaque.getLsbD (8 * k + i) = decide (p i ≠ 0) ∧
      v.fbAt s (8 * k + i) =
        (if p i = 0 then u.palRead 0 else u.palRead (4 * g + p i)).setWidth 6) ∧
    (∀ x, x / 8 ≠ k → v.bgOpaque.getLsbD x = u.bgOpaque.getLsbD x) ∧
    ∀ s' x, x < 256 → ¬ (s' = s ∧ x / 8 = k) → v.fbAt s' x = u.fbAt s' x

/-- For every PPU and line s: the evaluation clears every claim; with PPUMASK.SPR off it selects
none and leaves OVF. With it on, selCount is the number of sprites whose Y byte y has y + 1 ≤ s ≤
y + 8, at most 8, sel holds the first of them in ascending OAM index, and OVF becomes 1 exactly
when it was 1 or there are more than 8; nothing else changes (R198). -/
def Obligations.SpriteEvaluationSelectsTheFirstEight : Prop :=
  ∀ (u : Ppu) (s : Nat),
    let v := u.spriteEval s
    v = { u with selCount := v.selCount, sel := v.sel, ovf := v.ovf, sprClaimed := 0 } ∧
    (u.mask.getLsbD 4 = false → v.selCount = 0 ∧ v.ovf = u.ovf ∧ v.sel = u.sel) ∧
    (u.mask.getLsbD 4 = true →
      v.selCount = min 8 (onLine u s).length ∧
      (∀ j < v.selCount, (onLine u s)[j]? = some (v.selAt j)) ∧
      v.ovf = (u.ovf || decide (8 < (onLine u s).length)))

/-- For every cartridge, PPU and visible line s: slot j is drawn on dot 264 + 8j and only when j <
selCount, and the other dots of the slots do nothing. Drawing sprite i claims exactly the columns
where it is opaque, on the screen, and unclaimed; it paints such a column from palette group 4
plus its attribute's two bits exactly when its priority bit is 0 or the background is not opaque
there; S0 is set exactly when it was set or i is 0 and a column it claims has an opaque
background, whatever the priority; a claimed column is never painted again, and every other pixel
and field stays. For a row outside 0..7 (a Y byte changed after evaluation) the rule's pattern
address is masked to 14 bits like any PPU address, which is the model's choice (log 9)
(60_exceptions.md section 10 (R199, R200), 20_memory.md section 5 (R65)). -/
def Obligations.SpriteCompositeClaimsAndPaints : Prop :=
  ∀ (c : Cart) (u : Ppu) (s : Nat), s < 240 →
    (∀ j < 8, u.spriteFetchStep c s (264 + 8 * j) =
      if j < u.selCount then u.drawSprite c s (u.selAt j) else u) ∧
    (∀ d, 257 ≤ d → d ≤ 320 → d % 8 ≠ 0 → u.spriteFetchStep c s d = u) ∧
    ∀ i < 64,
      let v := u.drawSprite c s i
      let attr := u.oam.read (4 * i + 2)
      let at' (x : Nat) : Nat := spriteValue c u s i (x - (u.oam.read (4 * i + 3)).toNat)
      v = { u with fb := v.fb, sprClaimed := v.sprClaimed, s0 := v.s0 } ∧
      (∀ x < 256, v.sprClaimed.getLsbD x =
        (u.sprClaimed.getLsbD x || decide (Owns c u s i x))) ∧
      (∀ x < 256, v.fbAt s x =
        if Owns c u s i x ∧ (attr.getLsbD 5 = false ∨ u.bgOpaque.getLsbD x = false) then
          (u.palRead (0x10 + 4 * (attr.toNat % 4) + at' x)).setWidth 6
        else u.fbAt s x) ∧
      (∀ s' x, x < 256 → s' ≠ s → v.fbAt s' x = u.fbAt s' x) ∧
      (v.s0 = true ↔ u.s0 = true ∨
        (i = 0 ∧ ∃ x < 256, Owns c u s i x ∧ u.bgOpaque.getLsbD x = true))

/-- For every cartridge, PPU and number of dots: the PPU's step leaves OAM, the nametables, the
palette, the backdrop, PPUCTRL, PPUMASK, the port latches, lastWrite, OAMADDR, scrollX, scrollY,
both write latches, vaddr, addrHi and the read buffer as they were (VBL, S0, OVF, the render state
and the frames are what it does change, and it has no way to write the cartridge). For every
instruction, state and next state of exec: OAM changes only where the instruction stores to port 4
or to $4014; the nametables, the palette, the backdrop and CHR RAM change only where it stores to
port 7; and the cartridge image never changes (R69). -/
def Obligations.PpuMemoryIsReachedOnlyThroughItsPorts : Prop :=
  (∀ (c : Cart) (u : Ppu) (n : Nat),
    let v := u.stepN c n
    v.oam = u.oam ∧ v.ciram = u.ciram ∧ v.pal = u.pal ∧ v.palBd = u.palBd ∧ v.ctrl = u.ctrl ∧
    v.mask = u.mask ∧ v.latch = u.latch ∧ v.lastWrite = u.lastWrite ∧ v.oamAddr = u.oamAddr ∧
    v.scrollX = u.scrollX ∧ v.scrollY = u.scrollY ∧ v.scrollLatch = u.scrollLatch ∧
    v.vaddr = u.vaddr ∧ v.addrHi = u.addrHi ∧ v.addrLatch = u.addrLatch ∧ v.readBuf = u.readBuf) ∧
  ∀ (i : Instr) (s t : State), exec i s = .next t →
    let reaches (r : Nat) : Prop := ∃ a ∈ s.stores i, 0x2000 ≤ a.toNat ∧ a.toNat < 0x4000 ∧ a.toNat % 8 = r
    (¬ reaches 4 → 0x4014 ∉ s.stores i → t.ppu.oam = s.ppu.oam) ∧
    (¬ reaches 7 → t.ppu.ciram = s.ppu.ciram ∧ t.ppu.pal = s.ppu.pal ∧
      t.ppu.palBd = s.ppu.palBd ∧ t.cart.chrRam = s.cart.chrRam) ∧
    t.cart.image = s.cart.image

/-- For every cartridge image or none, every CPU_INIT, every MEM_INIT, every saved SRAM and every
parameter: A, X and Y are CPU_INIT, S is $FD, P is $24, PC is the word a bus read of $FFFC and
$FFFD gives; work RAM, OAM, the nametables, the palette, SRAM and CHR RAM (with no CHR bank) read
as MEM_INIT says (SRAM as saved, where it was), the cartridge is the inserted image, every other
item of the PPU and the controller is 0, no button is held, halted and nmiPending are 0 and
running is 1 (R204, R205). -/
def Obligations.PowerUpGivesTheResetTable : Prop :=
  ∀ inp : PowerUpInput,
    let s := powerUp inp
    s.cpu = ⟨inp.a, inp.x, inp.y, 0xFD, ofHiLo (s.peek 0xFFFD) (s.peek 0xFFFC), 0x24⟩ ∧
    (∀ a, s.wram.read a = listed 2048 inp.mem.wram a) ∧
    s.ctrl = ⟨false, 0, Buttons.released⟩ ∧
    (∃ sram chr, s.cart = insertCartridge (inp.image.map fun im => Image.ofCells im.1 im.2) sram chr ∧
      (∀ a, sram.read a = listed 8192 (inp.savedSram.getD inp.mem.sram) a) ∧
      ∀ a, chr.read a = listed 8192 inp.mem.chrRam a) ∧
    s.ppu = { Ppu.reset with
      oam := s.ppu.oam, ciram := s.ppu.ciram, palBd := inp.mem.palBd, pal := s.ppu.pal } ∧
    (∀ a, s.ppu.oam.read a = listed 256 inp.mem.oam a) ∧
    (∀ a, s.ppu.ciram.read a = listed 2048 inp.mem.ciram a) ∧
    (∀ a, a % 4 ≠ 0 → s.ppu.pal.read a = listed 32 inp.mem.pal a) ∧
    Ppu.reset = ⟨0, 0, false, false, false, ⟨0, 0, 0, 0, 0⟩, 0, 0, [], 0, 0, false, 0, 0, false, 0, [],
      0, [], 0, 0, 0, 0, 0, 0, 0, Vector.replicate 8 0, 0, 0, [], [], false, false⟩ ∧
    s.halted = false ∧ s.stopSignal = none ∧ s.nmiPending = false ∧ s.running = true ∧
    s.params = inp.params

/-- State.reset is the power-up of an absent image, A = X = Y = 0 (the model's choice, log 1),
memories reading $00 (the model's choice, log 2) and the default parameters (log 3); in it S is
$FD, P is $24, PC is $0000 as R61 says of a machine with no cartridge, and the invariant holds.
After power-up with no image, or one shorter than 16 bytes, mapper is 0 and IMAGE is empty (the
model's choice, log 19) (70_reset_and_hazards.md section 1, 20_memory.md section 3 (R61)). -/
def Obligations.ResetIsPowerUpWithNothing : Prop :=
  powerUp PowerUpInput.blank = State.reset ∧ State.reset.cpu.s = 0xFD ∧ State.reset.cpu.p = 0x24 ∧
  State.reset.cpu.pc = 0x0000 ∧ State.reset.Live ∧ State.reset.Inv ∧
  ∀ inp : PowerUpInput, (∀ im ∈ inp.image, im.1 < 16) →
    (powerUp inp).cart.mapper = 0 ∧ (powerUp inp).cart.image = ⟨0, []⟩

/-- The state after power-up with any image, contents and parameters meets the invariant
(canonical memories, header fields those of the image or all 0 without a cartridge, the mapper
number by log 19, counters and indices in range, port latches equal to their registers, the NMI
guard set exactly in vblank, the stop signal present exactly when halted), and a host action from
a state that meets it gives one that meets it (70_reset_and_hazards.md section 1, 60_exceptions.md
section 3 (R170)). -/
def Obligations.PowerUpAndHostActionsMeetTheInvariant : Prop :=
  (∀ inp : PowerUpInput, (powerUp inp).Inv) ∧ ∀ (s : State) (h : HostAction), s.Inv → (s.hostAct h).Inv

/-- For every state that meets the invariant and every next state the step gives: the memories are
in canonical form, the header fields are those of the image or all 0 without a cartridge (the
mapper number by log 19), ctrlIndex ≤ 8, scanline < 262, dot < 341, selCount ≤ 8, scrollY < 240,
the latches of ports 0 and 1 equal PPUCTRL and PPUMASK, the NMI guard is set exactly in vblank and
VBL only then, and the stop signal is present exactly when halted; so every reachable state meets
it (10_state.md sections 5 to 10, 20_memory.md section 2, 60_exceptions.md section 10). -/
def Obligations.StepKeepsTheInvariant : Prop :=
  (∀ s t : State, s.Inv → step s = .next t → t.Inv) ∧ ∀ s : State, Reachable s → s.Inv
end

