-- ==== Sys2Proof/Laws/Memory.lean ====
section
/-! SUPPORT. The laws of sparse cells: a read after a write, every other key left alone, and the
canonical form kept by every operation. -/

namespace Sys2Proof.Machine

variable {α : Type}

@[simp] theorem Cells.read_nil (d : α) (a : Nat) : Cells.read d [] a = d := rfl

theorem Cells.read_cons (d : α) (c : Nat × α) (m : Cells α) (a : Nat) :
    Cells.read d (c :: m) a = if c.1 = a then c.2 else Cells.read d m a := rfl

@[simp] theorem Cells.erase_nil (a : Nat) : Cells.erase ([] : Cells α) a = [] := rfl

theorem Cells.erase_cons (c : Nat × α) (m : Cells α) (a : Nat) :
    Cells.erase (c :: m) a = if c.1 = a then Cells.erase m a else c :: Cells.erase m a := by
  by_cases h : c.1 = a <;> simp [Cells.erase, h]

theorem Cells.mem_erase {m : Cells α} {a : Nat} {c : Nat × α} :
    c ∈ Cells.erase m a ↔ c ∈ m ∧ c.1 ≠ a := by
  simp [Cells.erase]

theorem Cells.mem_insert {m : Cells α} {a : Nat} {v : α} {c : Nat × α} :
    c ∈ Cells.insert m a v ↔ c = (a, v) ∨ c ∈ m := by
  induction m with
  | nil => simp [Cells.insert]
  | cons e m ih =>
    by_cases h : a < e.1
    · simp [Cells.insert, h]
    · simp [Cells.insert, h, ih]; tauto

theorem Cells.read_erase (d : α) (m : Cells α) (a b : Nat) :
    Cells.read d (Cells.erase m a) b = if b = a then d else Cells.read d m b := by
  induction m with
  | nil => simp
  | cons c m ih =>
    by_cases hc : c.1 = a
    · rw [Cells.erase_cons, if_pos hc, ih, Cells.read_cons]
      by_cases hb : b = a
      · simp [hb]
      · have : c.1 ≠ b := fun h => hb (h ▸ hc)
        simp [hb, this]
    · rw [Cells.erase_cons, if_neg hc, Cells.read_cons, ih, Cells.read_cons]
      by_cases hb : b = a
      · subst hb; simp [hc]
      · simp [hb]

theorem Cells.read_insert (d : α) (m : Cells α) (a : Nat) (v : α) (b : Nat)
    (h : ∀ c ∈ m, c.1 ≠ a) :
    Cells.read d (Cells.insert m a v) b = if b = a then v else Cells.read d m b := by
  induction m with
  | nil =>
    by_cases hb : b = a
    · simp [Cells.insert, Cells.read_cons, hb]
    · simp [Cells.insert, Cells.read_cons, hb, Ne.symm hb]
  | cons c m ih =>
    have hc : c.1 ≠ a := h c (by simp)
    by_cases hlt : a < c.1
    · by_cases hb : b = a
      · simp [Cells.insert, hlt, Cells.read_cons, hb]
      · simp [Cells.insert, hlt, Cells.read_cons, hb, Ne.symm hb]
    · simp only [Cells.insert, hlt, if_false, Cells.read_cons,
        ih fun c' hm => h c' (by simp [hm])]
      by_cases hb : b = a
      · subst hb; simp [hc]
      · simp [hb]

/-- Reading after a write: the value at the key written, what was there at every other. -/
theorem Cells.read_write [DecidableEq α] (d : α) (m : Cells α) (a : Nat) (v : α) (b : Nat) :
    Cells.read d (Cells.write d m a v) b = if b = a then v else Cells.read d m b := by
  unfold Cells.write
  split
  · next h => rw [Cells.read_erase, h]
  · rw [Cells.read_insert]
    · by_cases hb : b = a <;> simp [hb, Cells.read_erase]
    · intro c hc; exact (Cells.mem_erase.1 hc).2

@[simp] theorem Cells.read_write_same [DecidableEq α] (d : α) (m : Cells α) (a : Nat) (v : α) :
    Cells.read d (Cells.write d m a v) a = v := by simp [Cells.read_write]

theorem Cells.read_write_of_ne [DecidableEq α] (d : α) (m : Cells α) {a b : Nat} (v : α)
    (h : b ≠ a) : Cells.read d (Cells.write d m a v) b = Cells.read d m b := by
  simp [Cells.read_write, h]

theorem Cells.pairwise_insert {m : Cells α} {a : Nat} {v : α}
    (hm : m.Pairwise (fun c c' => c.1 < c'.1)) (ha : ∀ c ∈ m, c.1 ≠ a) :
    (Cells.insert m a v).Pairwise (fun c c' => c.1 < c'.1) := by
  induction m with
  | nil => simp [Cells.insert]
  | cons c m ih =>
    have ⟨hc, hm'⟩ := List.pairwise_cons.1 hm
    by_cases hlt : a < c.1
    · simp only [Cells.insert, hlt, if_true]
      refine List.pairwise_cons.2 ⟨?_, hm⟩
      intro e he
      rcases List.mem_cons.1 he with rfl | he
      · exact hlt
      · exact lt_trans hlt (hc e he)
    · simp only [Cells.insert, hlt, if_false]
      refine List.pairwise_cons.2 ⟨?_, ih hm' fun e he => ha e (by simp [he])⟩
      intro e he
      rcases Cells.mem_insert.1 he with rfl | he
      · exact lt_of_le_of_ne (not_lt.1 hlt) (ha c (by simp))
      · exact hc e he

/-- A cell after a write is the cell written or was there before. -/
theorem Cells.mem_write [DecidableEq α] {d : α} {m : Cells α} {a : Nat} {v : α} {c : Nat × α}
    (h : c ∈ Cells.write d m a v) : c = (a, v) ∨ c ∈ m := by
  unfold Cells.write at h
  split at h
  · exact .inr (Cells.mem_erase.1 h).1
  · rcases Cells.mem_insert.1 h with h | h
    · exact .inl h
    · exact .inr (Cells.mem_erase.1 h).1

/-- A write keeps the canonical form. -/
theorem Cells.canonical_write [DecidableEq α] {d : α} {m : Cells α} (a : Nat) (v : α)
    (h : Cells.Canonical d m) : Cells.Canonical d (Cells.write d m a v) := by
  have he : (Cells.erase m a).Pairwise (fun c c' => c.1 < c'.1) := h.1.sublist List.filter_sublist
  unfold Cells.write
  split
  · exact ⟨he, fun c hc => h.2 c (Cells.mem_erase.1 hc).1⟩
  · next hv =>
    refine ⟨Cells.pairwise_insert he fun c hc => (Cells.mem_erase.1 hc).2, fun c hc => ?_⟩
    rcases Cells.mem_insert.1 hc with rfl | hc
    · exact hv
    · exact h.2 c (Cells.mem_erase.1 hc).1

/-- A write below the bound keeps every key below it. -/
theorem Cells.below_write [DecidableEq α] {d : α} {n : Nat} {m : Cells α} {a : Nat} (v : α)
    (h : Cells.Below n m) (ha : a < n) : Cells.Below n (Cells.write d m a v) := by
  intro c hc
  unfold Cells.write at hc
  split at hc
  · exact h c (Cells.mem_erase.1 hc).1
  · rcases Cells.mem_insert.1 hc with rfl | hc
    · exact ha
    · exact h c (Cells.mem_erase.1 hc).1

theorem Memory.read_write (m : Memory) (a : Nat) (v : Byte) (b : Nat) :
    (m.write a v).read b = if b = a then v else m.read b := Cells.read_write _ _ _ _ _

@[simp] theorem Memory.read_write_same (m : Memory) (a : Nat) (v : Byte) :
    (m.write a v).read a = v := Cells.read_write_same _ _ _ _

theorem Memory.read_write_of_ne (m : Memory) {a b : Nat} (v : Byte) (h : b ≠ a) :
    (m.write a v).read b = m.read b := Cells.read_write_of_ne _ _ _ h

@[simp] theorem Memory.read_nil (a : Nat) : Memory.read [] a = 0 := rfl

@[simp] theorem Memory.wf_nil (n : Nat) : Memory.wf n [] :=
  ⟨⟨.nil, by simp⟩, by simp⟩

theorem Memory.wf_write {n : Nat} {m : Memory} {a : Nat} (v : Byte) (h : Memory.wf n m)
    (ha : a < n) : Memory.wf n (m.write a v) :=
  ⟨Cells.canonical_write a v h.1, Cells.below_write v h.2 ha⟩

/-- The memory of any list of cells is canonical. -/
theorem Memory.wf_ofCells (n : Nat) (cells : List Host.Cell) : Memory.wf n (Memory.ofCells n cells) := by
  suffices h : ∀ (l : List Host.Cell) (m : Memory), Memory.wf n m →
      Memory.wf n (l.foldl (fun m c => if c.1 < n then m.write c.1 c.2 else m) m) from
    h cells [] (Memory.wf_nil n)
  intro l
  induction l with
  | nil => exact fun m hm => hm
  | cons c l ih =>
    intro m hm
    refine ih _ ?_
    by_cases h : c.1 < n
    · simpa [h] using Memory.wf_write c.2 hm h
    · simpa [h] using hm

end Sys2Proof.Machine
end

