-- ==== Sys2Proof/Laws/State.lean ====
section
/-! SUPPORT. One lemma per register update and field, true by rfl, so that no proof unfolds a record
update. -/

namespace Sys2Proof.Machine

@[simp] theorem State.setA_a (s : State) (v : Byte) : (s.setA v).cpu.a = v := rfl
@[simp] theorem State.setA_x (s : State) (v : Byte) : (s.setA v).cpu.x = s.cpu.x := rfl
@[simp] theorem State.setA_y (s : State) (v : Byte) : (s.setA v).cpu.y = s.cpu.y := rfl
@[simp] theorem State.setA_s (s : State) (v : Byte) : (s.setA v).cpu.s = s.cpu.s := rfl
@[simp] theorem State.setA_pc (s : State) (v : Byte) : (s.setA v).cpu.pc = s.cpu.pc := rfl
@[simp] theorem State.setA_p (s : State) (v : Byte) : (s.setA v).cpu.p = s.cpu.p := rfl
@[simp] theorem State.setA_wram (s : State) (v : Byte) : (s.setA v).wram = s.wram := rfl
@[simp] theorem State.setA_ctrl (s : State) (v : Byte) : (s.setA v).ctrl = s.ctrl := rfl
@[simp] theorem State.setA_cart (s : State) (v : Byte) : (s.setA v).cart = s.cart := rfl
@[simp] theorem State.setA_ppu (s : State) (v : Byte) : (s.setA v).ppu = s.ppu := rfl
@[simp] theorem State.setA_halted (s : State) (v : Byte) : (s.setA v).halted = s.halted := rfl
@[simp] theorem State.setA_stopSignal (s : State) (v : Byte) : (s.setA v).stopSignal = s.stopSignal := rfl
@[simp] theorem State.setA_nmiPending (s : State) (v : Byte) : (s.setA v).nmiPending = s.nmiPending := rfl
@[simp] theorem State.setA_running (s : State) (v : Byte) : (s.setA v).running = s.running := rfl
@[simp] theorem State.setA_params (s : State) (v : Byte) : (s.setA v).params = s.params := rfl

@[simp] theorem State.setX_a (s : State) (v : Byte) : (s.setX v).cpu.a = s.cpu.a := rfl
@[simp] theorem State.setX_x (s : State) (v : Byte) : (s.setX v).cpu.x = v := rfl
@[simp] theorem State.setX_y (s : State) (v : Byte) : (s.setX v).cpu.y = s.cpu.y := rfl
@[simp] theorem State.setX_s (s : State) (v : Byte) : (s.setX v).cpu.s = s.cpu.s := rfl
@[simp] theorem State.setX_pc (s : State) (v : Byte) : (s.setX v).cpu.pc = s.cpu.pc := rfl
@[simp] theorem State.setX_p (s : State) (v : Byte) : (s.setX v).cpu.p = s.cpu.p := rfl
@[simp] theorem State.setX_wram (s : State) (v : Byte) : (s.setX v).wram = s.wram := rfl
@[simp] theorem State.setX_ctrl (s : State) (v : Byte) : (s.setX v).ctrl = s.ctrl := rfl
@[simp] theorem State.setX_cart (s : State) (v : Byte) : (s.setX v).cart = s.cart := rfl
@[simp] theorem State.setX_ppu (s : State) (v : Byte) : (s.setX v).ppu = s.ppu := rfl
@[simp] theorem State.setX_halted (s : State) (v : Byte) : (s.setX v).halted = s.halted := rfl
@[simp] theorem State.setX_stopSignal (s : State) (v : Byte) : (s.setX v).stopSignal = s.stopSignal := rfl
@[simp] theorem State.setX_nmiPending (s : State) (v : Byte) : (s.setX v).nmiPending = s.nmiPending := rfl
@[simp] theorem State.setX_running (s : State) (v : Byte) : (s.setX v).running = s.running := rfl
@[simp] theorem State.setX_params (s : State) (v : Byte) : (s.setX v).params = s.params := rfl

@[simp] theorem State.setY_a (s : State) (v : Byte) : (s.setY v).cpu.a = s.cpu.a := rfl
@[simp] theorem State.setY_x (s : State) (v : Byte) : (s.setY v).cpu.x = s.cpu.x := rfl
@[simp] theorem State.setY_y (s : State) (v : Byte) : (s.setY v).cpu.y = v := rfl
@[simp] theorem State.setY_s (s : State) (v : Byte) : (s.setY v).cpu.s = s.cpu.s := rfl
@[simp] theorem State.setY_pc (s : State) (v : Byte) : (s.setY v).cpu.pc = s.cpu.pc := rfl
@[simp] theorem State.setY_p (s : State) (v : Byte) : (s.setY v).cpu.p = s.cpu.p := rfl
@[simp] theorem State.setY_wram (s : State) (v : Byte) : (s.setY v).wram = s.wram := rfl
@[simp] theorem State.setY_ctrl (s : State) (v : Byte) : (s.setY v).ctrl = s.ctrl := rfl
@[simp] theorem State.setY_cart (s : State) (v : Byte) : (s.setY v).cart = s.cart := rfl
@[simp] theorem State.setY_ppu (s : State) (v : Byte) : (s.setY v).ppu = s.ppu := rfl
@[simp] theorem State.setY_halted (s : State) (v : Byte) : (s.setY v).halted = s.halted := rfl
@[simp] theorem State.setY_stopSignal (s : State) (v : Byte) : (s.setY v).stopSignal = s.stopSignal := rfl
@[simp] theorem State.setY_nmiPending (s : State) (v : Byte) : (s.setY v).nmiPending = s.nmiPending := rfl
@[simp] theorem State.setY_running (s : State) (v : Byte) : (s.setY v).running = s.running := rfl
@[simp] theorem State.setY_params (s : State) (v : Byte) : (s.setY v).params = s.params := rfl

@[simp] theorem State.setS_a (s : State) (v : Byte) : (s.setS v).cpu.a = s.cpu.a := rfl
@[simp] theorem State.setS_x (s : State) (v : Byte) : (s.setS v).cpu.x = s.cpu.x := rfl
@[simp] theorem State.setS_y (s : State) (v : Byte) : (s.setS v).cpu.y = s.cpu.y := rfl
@[simp] theorem State.setS_s (s : State) (v : Byte) : (s.setS v).cpu.s = v := rfl
@[simp] theorem State.setS_pc (s : State) (v : Byte) : (s.setS v).cpu.pc = s.cpu.pc := rfl
@[simp] theorem State.setS_p (s : State) (v : Byte) : (s.setS v).cpu.p = s.cpu.p := rfl
@[simp] theorem State.setS_wram (s : State) (v : Byte) : (s.setS v).wram = s.wram := rfl
@[simp] theorem State.setS_ctrl (s : State) (v : Byte) : (s.setS v).ctrl = s.ctrl := rfl
@[simp] theorem State.setS_cart (s : State) (v : Byte) : (s.setS v).cart = s.cart := rfl
@[simp] theorem State.setS_ppu (s : State) (v : Byte) : (s.setS v).ppu = s.ppu := rfl
@[simp] theorem State.setS_halted (s : State) (v : Byte) : (s.setS v).halted = s.halted := rfl
@[simp] theorem State.setS_stopSignal (s : State) (v : Byte) : (s.setS v).stopSignal = s.stopSignal := rfl
@[simp] theorem State.setS_nmiPending (s : State) (v : Byte) : (s.setS v).nmiPending = s.nmiPending := rfl
@[simp] theorem State.setS_running (s : State) (v : Byte) : (s.setS v).running = s.running := rfl
@[simp] theorem State.setS_params (s : State) (v : Byte) : (s.setS v).params = s.params := rfl

@[simp] theorem State.setPc_a (s : State) (v : Word) : (s.setPc v).cpu.a = s.cpu.a := rfl
@[simp] theorem State.setPc_x (s : State) (v : Word) : (s.setPc v).cpu.x = s.cpu.x := rfl
@[simp] theorem State.setPc_y (s : State) (v : Word) : (s.setPc v).cpu.y = s.cpu.y := rfl
@[simp] theorem State.setPc_s (s : State) (v : Word) : (s.setPc v).cpu.s = s.cpu.s := rfl
@[simp] theorem State.setPc_pc (s : State) (v : Word) : (s.setPc v).cpu.pc = v := rfl
@[simp] theorem State.setPc_p (s : State) (v : Word) : (s.setPc v).cpu.p = s.cpu.p := rfl
@[simp] theorem State.setPc_wram (s : State) (v : Word) : (s.setPc v).wram = s.wram := rfl
@[simp] theorem State.setPc_ctrl (s : State) (v : Word) : (s.setPc v).ctrl = s.ctrl := rfl
@[simp] theorem State.setPc_cart (s : State) (v : Word) : (s.setPc v).cart = s.cart := rfl
@[simp] theorem State.setPc_ppu (s : State) (v : Word) : (s.setPc v).ppu = s.ppu := rfl
@[simp] theorem State.setPc_halted (s : State) (v : Word) : (s.setPc v).halted = s.halted := rfl
@[simp] theorem State.setPc_stopSignal (s : State) (v : Word) : (s.setPc v).stopSignal = s.stopSignal := rfl
@[simp] theorem State.setPc_nmiPending (s : State) (v : Word) : (s.setPc v).nmiPending = s.nmiPending := rfl
@[simp] theorem State.setPc_running (s : State) (v : Word) : (s.setPc v).running = s.running := rfl
@[simp] theorem State.setPc_params (s : State) (v : Word) : (s.setPc v).params = s.params := rfl

@[simp] theorem State.setP_a (s : State) (v : Byte) : (s.setP v).cpu.a = s.cpu.a := rfl
@[simp] theorem State.setP_x (s : State) (v : Byte) : (s.setP v).cpu.x = s.cpu.x := rfl
@[simp] theorem State.setP_y (s : State) (v : Byte) : (s.setP v).cpu.y = s.cpu.y := rfl
@[simp] theorem State.setP_s (s : State) (v : Byte) : (s.setP v).cpu.s = s.cpu.s := rfl
@[simp] theorem State.setP_pc (s : State) (v : Byte) : (s.setP v).cpu.pc = s.cpu.pc := rfl
@[simp] theorem State.setP_p (s : State) (v : Byte) : (s.setP v).cpu.p = v := rfl
@[simp] theorem State.setP_wram (s : State) (v : Byte) : (s.setP v).wram = s.wram := rfl
@[simp] theorem State.setP_ctrl (s : State) (v : Byte) : (s.setP v).ctrl = s.ctrl := rfl
@[simp] theorem State.setP_cart (s : State) (v : Byte) : (s.setP v).cart = s.cart := rfl
@[simp] theorem State.setP_ppu (s : State) (v : Byte) : (s.setP v).ppu = s.ppu := rfl
@[simp] theorem State.setP_halted (s : State) (v : Byte) : (s.setP v).halted = s.halted := rfl
@[simp] theorem State.setP_stopSignal (s : State) (v : Byte) : (s.setP v).stopSignal = s.stopSignal := rfl
@[simp] theorem State.setP_nmiPending (s : State) (v : Byte) : (s.setP v).nmiPending = s.nmiPending := rfl
@[simp] theorem State.setP_running (s : State) (v : Byte) : (s.setP v).running = s.running := rfl
@[simp] theorem State.setP_params (s : State) (v : Byte) : (s.setP v).params = s.params := rfl

/-! A register written twice, and written back, and the one normal form of a chain of updates. -/

@[simp] theorem State.setP_setP (s : State) (v w : Byte) : (s.setP v).setP w = s.setP w := rfl
@[simp] theorem State.setPc_setPc (s : State) (v w : Word) : (s.setPc v).setPc w = s.setPc w := rfl
@[simp] theorem State.setS_setS (s : State) (v w : Byte) : (s.setS v).setS w = s.setS w := rfl
@[simp] theorem State.setP_self (s : State) : s.setP s.cpu.p = s := rfl
@[simp] theorem State.setPc_self (s : State) : s.setPc s.cpu.pc = s := rfl
@[simp] theorem State.setS_self (s : State) : s.setS s.cpu.s = s := rfl

theorem State.putFlag_def (s : State) (f : Flag) (b : Bool) :
    s.putFlag f b = s.setP (setFlag s.cpu.p f b) := rfl
theorem State.setZN_def (s : State) (v : Byte) : s.setZN v = s.setP (Machine.setZN s.cpu.p v) := rfl
theorem State.pull_def (s : State) : s.pull = s.setS (s.cpu.s + 1) := rfl

end Sys2Proof.Machine
end

