-- ==== Sys2Proof/Laws/Bus.lean ====
section
/-! SUPPORT. What a bus read, a bus write and OAM DMA can change (20_memory.md R53, R54, R64,
60_exceptions.md R191): one lemma per field, and the write law of plain memory. -/

namespace Sys2Proof.Machine

/-! ### A port read -/

/-- A port read changes at most VBL, the two write latches, the read buffer and vaddr. -/
theorem Ppu.portTouch_shape (ps : Params) (c : Cart) (u : Ppu) (r : Port) :
    ∃ vbl sl al rb va, u.portTouch ps c r =
      { u with vbl := vbl, scrollLatch := sl, addrLatch := al, readBuf := rb, vaddr := va } := by
  unfold Ppu.portTouch
  split
  · split_ifs
    · exact ⟨_, _, _, u.readBuf, u.vaddr, rfl⟩
    · exact ⟨u.vbl, u.scrollLatch, u.addrLatch, u.readBuf, u.vaddr, rfl⟩
  · exact ⟨u.vbl, u.scrollLatch, u.addrLatch, _, _, rfl⟩
  all_goals exact ⟨u.vbl, u.scrollLatch, u.addrLatch, u.readBuf, u.vaddr, rfl⟩

@[simp] theorem Ppu.portTouch_ctrl (ps : Params) (c : Cart) (u : Ppu) (r : Port) :
    (u.portTouch ps c r).ctrl = u.ctrl := by
  obtain ⟨_, _, _, _, _, h⟩ := u.portTouch_shape ps c r; rw [h]

@[simp] theorem Ppu.portTouch_mask (ps : Params) (c : Cart) (u : Ppu) (r : Port) :
    (u.portTouch ps c r).mask = u.mask := by
  obtain ⟨_, _, _, _, _, h⟩ := u.portTouch_shape ps c r; rw [h]

@[simp] theorem Ppu.portTouch_s0 (ps : Params) (c : Cart) (u : Ppu) (r : Port) :
    (u.portTouch ps c r).s0 = u.s0 := by
  obtain ⟨_, _, _, _, _, h⟩ := u.portTouch_shape ps c r; rw [h]

@[simp] theorem Ppu.portTouch_ovf (ps : Params) (c : Cart) (u : Ppu) (r : Port) :
    (u.portTouch ps c r).ovf = u.ovf := by
  obtain ⟨_, _, _, _, _, h⟩ := u.portTouch_shape ps c r; rw [h]

@[simp] theorem Ppu.portTouch_latch (ps : Params) (c : Cart) (u : Ppu) (r : Port) :
    (u.portTouch ps c r).latch = u.latch := by
  obtain ⟨_, _, _, _, _, h⟩ := u.portTouch_shape ps c r; rw [h]

@[simp] theorem Ppu.portTouch_lastWrite (ps : Params) (c : Cart) (u : Ppu) (r : Port) :
    (u.portTouch ps c r).lastWrite = u.lastWrite := by
  obtain ⟨_, _, _, _, _, h⟩ := u.portTouch_shape ps c r; rw [h]

@[simp] theorem Ppu.portTouch_oamAddr (ps : Params) (c : Cart) (u : Ppu) (r : Port) :
    (u.portTouch ps c r).oamAddr = u.oamAddr := by
  obtain ⟨_, _, _, _, _, h⟩ := u.portTouch_shape ps c r; rw [h]

@[simp] theorem Ppu.portTouch_oam (ps : Params) (c : Cart) (u : Ppu) (r : Port) :
    (u.portTouch ps c r).oam = u.oam := by
  obtain ⟨_, _, _, _, _, h⟩ := u.portTouch_shape ps c r; rw [h]

@[simp] theorem Ppu.portTouch_scrollX (ps : Params) (c : Cart) (u : Ppu) (r : Port) :
    (u.portTouch ps c r).scrollX = u.scrollX := by
  obtain ⟨_, _, _, _, _, h⟩ := u.portTouch_shape ps c r; rw [h]

@[simp] theorem Ppu.portTouch_scrollY (ps : Params) (c : Cart) (u : Ppu) (r : Port) :
    (u.portTouch ps c r).scrollY = u.scrollY := by
  obtain ⟨_, _, _, _, _, h⟩ := u.portTouch_shape ps c r; rw [h]

@[simp] theorem Ppu.portTouch_addrHi (ps : Params) (c : Cart) (u : Ppu) (r : Port) :
    (u.portTouch ps c r).addrHi = u.addrHi := by
  obtain ⟨_, _, _, _, _, h⟩ := u.portTouch_shape ps c r; rw [h]

@[simp] theorem Ppu.portTouch_ciram (ps : Params) (c : Cart) (u : Ppu) (r : Port) :
    (u.portTouch ps c r).ciram = u.ciram := by
  obtain ⟨_, _, _, _, _, h⟩ := u.portTouch_shape ps c r; rw [h]

@[simp] theorem Ppu.portTouch_palBd (ps : Params) (c : Cart) (u : Ppu) (r : Port) :
    (u.portTouch ps c r).palBd = u.palBd := by
  obtain ⟨_, _, _, _, _, h⟩ := u.portTouch_shape ps c r; rw [h]

@[simp] theorem Ppu.portTouch_pal (ps : Params) (c : Cart) (u : Ppu) (r : Port) :
    (u.portTouch ps c r).pal = u.pal := by
  obtain ⟨_, _, _, _, _, h⟩ := u.portTouch_shape ps c r; rw [h]

@[simp] theorem Ppu.portTouch_scanline (ps : Params) (c : Cart) (u : Ppu) (r : Port) :
    (u.portTouch ps c r).scanline = u.scanline := by
  obtain ⟨_, _, _, _, _, h⟩ := u.portTouch_shape ps c r; rw [h]

@[simp] theorem Ppu.portTouch_dot (ps : Params) (c : Cart) (u : Ppu) (r : Port) :
    (u.portTouch ps c r).dot = u.dot := by
  obtain ⟨_, _, _, _, _, h⟩ := u.portTouch_shape ps c r; rw [h]

@[simp] theorem Ppu.portTouch_ntByte (ps : Params) (c : Cart) (u : Ppu) (r : Port) :
    (u.portTouch ps c r).ntByte = u.ntByte := by
  obtain ⟨_, _, _, _, _, h⟩ := u.portTouch_shape ps c r; rw [h]

@[simp] theorem Ppu.portTouch_atByte (ps : Params) (c : Cart) (u : Ppu) (r : Port) :
    (u.portTouch ps c r).atByte = u.atByte := by
  obtain ⟨_, _, _, _, _, h⟩ := u.portTouch_shape ps c r; rw [h]

@[simp] theorem Ppu.portTouch_ptLow (ps : Params) (c : Cart) (u : Ppu) (r : Port) :
    (u.portTouch ps c r).ptLow = u.ptLow := by
  obtain ⟨_, _, _, _, _, h⟩ := u.portTouch_shape ps c r; rw [h]

@[simp] theorem Ppu.portTouch_ptHigh (ps : Params) (c : Cart) (u : Ppu) (r : Port) :
    (u.portTouch ps c r).ptHigh = u.ptHigh := by
  obtain ⟨_, _, _, _, _, h⟩ := u.portTouch_shape ps c r; rw [h]

@[simp] theorem Ppu.portTouch_selCount (ps : Params) (c : Cart) (u : Ppu) (r : Port) :
    (u.portTouch ps c r).selCount = u.selCount := by
  obtain ⟨_, _, _, _, _, h⟩ := u.portTouch_shape ps c r; rw [h]

@[simp] theorem Ppu.portTouch_sel (ps : Params) (c : Cart) (u : Ppu) (r : Port) :
    (u.portTouch ps c r).sel = u.sel := by
  obtain ⟨_, _, _, _, _, h⟩ := u.portTouch_shape ps c r; rw [h]

@[simp] theorem Ppu.portTouch_bgOpaque (ps : Params) (c : Cart) (u : Ppu) (r : Port) :
    (u.portTouch ps c r).bgOpaque = u.bgOpaque := by
  obtain ⟨_, _, _, _, _, h⟩ := u.portTouch_shape ps c r; rw [h]

@[simp] theorem Ppu.portTouch_sprClaimed (ps : Params) (c : Cart) (u : Ppu) (r : Port) :
    (u.portTouch ps c r).sprClaimed = u.sprClaimed := by
  obtain ⟨_, _, _, _, _, h⟩ := u.portTouch_shape ps c r; rw [h]

@[simp] theorem Ppu.portTouch_fb (ps : Params) (c : Cart) (u : Ppu) (r : Port) :
    (u.portTouch ps c r).fb = u.fb := by
  obtain ⟨_, _, _, _, _, h⟩ := u.portTouch_shape ps c r; rw [h]

@[simp] theorem Ppu.portTouch_frame (ps : Params) (c : Cart) (u : Ppu) (r : Port) :
    (u.portTouch ps c r).frame = u.frame := by
  obtain ⟨_, _, _, _, _, h⟩ := u.portTouch_shape ps c r; rw [h]

@[simp] theorem Ppu.portTouch_frameReady (ps : Params) (c : Cart) (u : Ppu) (r : Port) :
    (u.portTouch ps c r).frameReady = u.frameReady := by
  obtain ⟨_, _, _, _, _, h⟩ := u.portTouch_shape ps c r; rw [h]

@[simp] theorem Ppu.portTouch_nmiGuard (ps : Params) (c : Cart) (u : Ppu) (r : Port) :
    (u.portTouch ps c r).nmiGuard = u.nmiGuard := by
  obtain ⟨_, _, _, _, _, h⟩ := u.portTouch_shape ps c r; rw [h]

/-! ### A bus read -/

@[simp] theorem State.touch_cpu (s : State) (a : Word) :
    (s.touch a).cpu = s.cpu := by
  unfold State.touch; split_ifs <;> rfl

@[simp] theorem State.touch_wram (s : State) (a : Word) :
    (s.touch a).wram = s.wram := by
  unfold State.touch; split_ifs <;> rfl

@[simp] theorem State.touch_cart (s : State) (a : Word) :
    (s.touch a).cart = s.cart := by
  unfold State.touch; split_ifs <;> rfl

@[simp] theorem State.touch_halted (s : State) (a : Word) :
    (s.touch a).halted = s.halted := by
  unfold State.touch; split_ifs <;> rfl

@[simp] theorem State.touch_stopSignal (s : State) (a : Word) :
    (s.touch a).stopSignal = s.stopSignal := by
  unfold State.touch; split_ifs <;> rfl

@[simp] theorem State.touch_nmiPending (s : State) (a : Word) :
    (s.touch a).nmiPending = s.nmiPending := by
  unfold State.touch; split_ifs <;> rfl

@[simp] theorem State.touch_running (s : State) (a : Word) :
    (s.touch a).running = s.running := by
  unfold State.touch; split_ifs <;> rfl

@[simp] theorem State.touch_params (s : State) (a : Word) :
    (s.touch a).params = s.params := by
  unfold State.touch; split_ifs <;> rfl

@[simp] theorem State.touch_ppu_ctrl (s : State) (a : Word) :
    (s.touch a).ppu.ctrl = s.ppu.ctrl := by
  unfold State.touch; split_ifs <;> simp

@[simp] theorem State.touch_ppu_mask (s : State) (a : Word) :
    (s.touch a).ppu.mask = s.ppu.mask := by
  unfold State.touch; split_ifs <;> simp

@[simp] theorem State.touch_ppu_s0 (s : State) (a : Word) :
    (s.touch a).ppu.s0 = s.ppu.s0 := by
  unfold State.touch; split_ifs <;> simp

@[simp] theorem State.touch_ppu_ovf (s : State) (a : Word) :
    (s.touch a).ppu.ovf = s.ppu.ovf := by
  unfold State.touch; split_ifs <;> simp

@[simp] theorem State.touch_ppu_latch (s : State) (a : Word) :
    (s.touch a).ppu.latch = s.ppu.latch := by
  unfold State.touch; split_ifs <;> simp

@[simp] theorem State.touch_ppu_lastWrite (s : State) (a : Word) :
    (s.touch a).ppu.lastWrite = s.ppu.lastWrite := by
  unfold State.touch; split_ifs <;> simp

@[simp] theorem State.touch_ppu_oamAddr (s : State) (a : Word) :
    (s.touch a).ppu.oamAddr = s.ppu.oamAddr := by
  unfold State.touch; split_ifs <;> simp

@[simp] theorem State.touch_ppu_oam (s : State) (a : Word) :
    (s.touch a).ppu.oam = s.ppu.oam := by
  unfold State.touch; split_ifs <;> simp

@[simp] theorem State.touch_ppu_scrollX (s : State) (a : Word) :
    (s.touch a).ppu.scrollX = s.ppu.scrollX := by
  unfold State.touch; split_ifs <;> simp

@[simp] theorem State.touch_ppu_scrollY (s : State) (a : Word) :
    (s.touch a).ppu.scrollY = s.ppu.scrollY := by
  unfold State.touch; split_ifs <;> simp

@[simp] theorem State.touch_ppu_addrHi (s : State) (a : Word) :
    (s.touch a).ppu.addrHi = s.ppu.addrHi := by
  unfold State.touch; split_ifs <;> simp

@[simp] theorem State.touch_ppu_ciram (s : State) (a : Word) :
    (s.touch a).ppu.ciram = s.ppu.ciram := by
  unfold State.touch; split_ifs <;> simp

@[simp] theorem State.touch_ppu_palBd (s : State) (a : Word) :
    (s.touch a).ppu.palBd = s.ppu.palBd := by
  unfold State.touch; split_ifs <;> simp

@[simp] theorem State.touch_ppu_pal (s : State) (a : Word) :
    (s.touch a).ppu.pal = s.ppu.pal := by
  unfold State.touch; split_ifs <;> simp

@[simp] theorem State.touch_ppu_scanline (s : State) (a : Word) :
    (s.touch a).ppu.scanline = s.ppu.scanline := by
  unfold State.touch; split_ifs <;> simp

@[simp] theorem State.touch_ppu_dot (s : State) (a : Word) :
    (s.touch a).ppu.dot = s.ppu.dot := by
  unfold State.touch; split_ifs <;> simp

@[simp] theorem State.touch_ppu_ntByte (s : State) (a : Word) :
    (s.touch a).ppu.ntByte = s.ppu.ntByte := by
  unfold State.touch; split_ifs <;> simp

@[simp] theorem State.touch_ppu_atByte (s : State) (a : Word) :
    (s.touch a).ppu.atByte = s.ppu.atByte := by
  unfold State.touch; split_ifs <;> simp

@[simp] theorem State.touch_ppu_ptLow (s : State) (a : Word) :
    (s.touch a).ppu.ptLow = s.ppu.ptLow := by
  unfold State.touch; split_ifs <;> simp

@[simp] theorem State.touch_ppu_ptHigh (s : State) (a : Word) :
    (s.touch a).ppu.ptHigh = s.ppu.ptHigh := by
  unfold State.touch; split_ifs <;> simp

@[simp] theorem State.touch_ppu_selCount (s : State) (a : Word) :
    (s.touch a).ppu.selCount = s.ppu.selCount := by
  unfold State.touch; split_ifs <;> simp

@[simp] theorem State.touch_ppu_sel (s : State) (a : Word) :
    (s.touch a).ppu.sel = s.ppu.sel := by
  unfold State.touch; split_ifs <;> simp

@[simp] theorem State.touch_ppu_bgOpaque (s : State) (a : Word) :
    (s.touch a).ppu.bgOpaque = s.ppu.bgOpaque := by
  unfold State.touch; split_ifs <;> simp

@[simp] theorem State.touch_ppu_sprClaimed (s : State) (a : Word) :
    (s.touch a).ppu.sprClaimed = s.ppu.sprClaimed := by
  unfold State.touch; split_ifs <;> simp

@[simp] theorem State.touch_ppu_fb (s : State) (a : Word) :
    (s.touch a).ppu.fb = s.ppu.fb := by
  unfold State.touch; split_ifs <;> simp

@[simp] theorem State.touch_ppu_frame (s : State) (a : Word) :
    (s.touch a).ppu.frame = s.ppu.frame := by
  unfold State.touch; split_ifs <;> simp

@[simp] theorem State.touch_ppu_frameReady (s : State) (a : Word) :
    (s.touch a).ppu.frameReady = s.ppu.frameReady := by
  unfold State.touch; split_ifs <;> simp

@[simp] theorem State.touch_ppu_nmiGuard (s : State) (a : Word) :
    (s.touch a).ppu.nmiGuard = s.ppu.nmiGuard := by
  unfold State.touch; split_ifs <;> simp

@[simp] theorem State.touch_ctrl_strobe (s : State) (a : Word) :
    (s.touch a).ctrl.strobe = s.ctrl.strobe := by
  unfold State.touch Ctrl.touch; split_ifs <;> rfl

@[simp] theorem State.touch_ctrl_buttons (s : State) (a : Word) :
    (s.touch a).ctrl.buttons = s.ctrl.buttons := by
  unfold State.touch Ctrl.touch; split_ifs <;> rfl

/-! ### OAM DMA -/

@[simp] theorem State.dmaFrom_cpu (v : Byte) (n : Nat) (s : State) :
    (State.dmaFrom v n s).cpu = s.cpu := by
  induction n generalizing s with
  | zero => rfl
  | succ n ih => simp only [State.dmaFrom, ih, State.touch_cpu]

@[simp] theorem State.oamDma_cpu (v : Byte) (s : State) : (s.oamDma v).cpu = s.cpu := by
  unfold State.oamDma; exact State.dmaFrom_cpu v 256 s

@[simp] theorem State.dmaFrom_wram (v : Byte) (n : Nat) (s : State) :
    (State.dmaFrom v n s).wram = s.wram := by
  induction n generalizing s with
  | zero => rfl
  | succ n ih => simp only [State.dmaFrom, ih, State.touch_wram]

@[simp] theorem State.oamDma_wram (v : Byte) (s : State) : (s.oamDma v).wram = s.wram := by
  unfold State.oamDma; exact State.dmaFrom_wram v 256 s

@[simp] theorem State.dmaFrom_cart (v : Byte) (n : Nat) (s : State) :
    (State.dmaFrom v n s).cart = s.cart := by
  induction n generalizing s with
  | zero => rfl
  | succ n ih => simp only [State.dmaFrom, ih, State.touch_cart]

@[simp] theorem State.oamDma_cart (v : Byte) (s : State) : (s.oamDma v).cart = s.cart := by
  unfold State.oamDma; exact State.dmaFrom_cart v 256 s

@[simp] theorem State.dmaFrom_halted (v : Byte) (n : Nat) (s : State) :
    (State.dmaFrom v n s).halted = s.halted := by
  induction n generalizing s with
  | zero => rfl
  | succ n ih => simp only [State.dmaFrom, ih, State.touch_halted]

@[simp] theorem State.oamDma_halted (v : Byte) (s : State) : (s.oamDma v).halted = s.halted := by
  unfold State.oamDma; exact State.dmaFrom_halted v 256 s

@[simp] theorem State.dmaFrom_stopSignal (v : Byte) (n : Nat) (s : State) :
    (State.dmaFrom v n s).stopSignal = s.stopSignal := by
  induction n generalizing s with
  | zero => rfl
  | succ n ih => simp only [State.dmaFrom, ih, State.touch_stopSignal]

@[simp] theorem State.oamDma_stopSignal (v : Byte) (s : State) : (s.oamDma v).stopSignal = s.stopSignal := by
  unfold State.oamDma; exact State.dmaFrom_stopSignal v 256 s

@[simp] theorem State.dmaFrom_nmiPending (v : Byte) (n : Nat) (s : State) :
    (State.dmaFrom v n s).nmiPending = s.nmiPending := by
  induction n generalizing s with
  | zero => rfl
  | succ n ih => simp only [State.dmaFrom, ih, State.touch_nmiPending]

@[simp] theorem State.oamDma_nmiPending (v : Byte) (s : State) : (s.oamDma v).nmiPending = s.nmiPending := by
  unfold State.oamDma; exact State.dmaFrom_nmiPending v 256 s

@[simp] theorem State.dmaFrom_running (v : Byte) (n : Nat) (s : State) :
    (State.dmaFrom v n s).running = s.running := by
  induction n generalizing s with
  | zero => rfl
  | succ n ih => simp only [State.dmaFrom, ih, State.touch_running]

@[simp] theorem State.oamDma_running (v : Byte) (s : State) : (s.oamDma v).running = s.running := by
  unfold State.oamDma; exact State.dmaFrom_running v 256 s

@[simp] theorem State.dmaFrom_params (v : Byte) (n : Nat) (s : State) :
    (State.dmaFrom v n s).params = s.params := by
  induction n generalizing s with
  | zero => rfl
  | succ n ih => simp only [State.dmaFrom, ih, State.touch_params]

@[simp] theorem State.oamDma_params (v : Byte) (s : State) : (s.oamDma v).params = s.params := by
  unfold State.oamDma; exact State.dmaFrom_params v 256 s

@[simp] theorem State.dmaFrom_ppu_ctrl (v : Byte) (n : Nat) (s : State) :
    (State.dmaFrom v n s).ppu.ctrl = s.ppu.ctrl := by
  induction n generalizing s with
  | zero => rfl
  | succ n ih => simp only [State.dmaFrom, ih, State.touch_ppu_ctrl]

@[simp] theorem State.dmaFrom_ppu_mask (v : Byte) (n : Nat) (s : State) :
    (State.dmaFrom v n s).ppu.mask = s.ppu.mask := by
  induction n generalizing s with
  | zero => rfl
  | succ n ih => simp only [State.dmaFrom, ih, State.touch_ppu_mask]

@[simp] theorem State.dmaFrom_ppu_s0 (v : Byte) (n : Nat) (s : State) :
    (State.dmaFrom v n s).ppu.s0 = s.ppu.s0 := by
  induction n generalizing s with
  | zero => rfl
  | succ n ih => simp only [State.dmaFrom, ih, State.touch_ppu_s0]

@[simp] theorem State.dmaFrom_ppu_ovf (v : Byte) (n : Nat) (s : State) :
    (State.dmaFrom v n s).ppu.ovf = s.ppu.ovf := by
  induction n generalizing s with
  | zero => rfl
  | succ n ih => simp only [State.dmaFrom, ih, State.touch_ppu_ovf]

@[simp] theorem State.dmaFrom_ppu_latch (v : Byte) (n : Nat) (s : State) :
    (State.dmaFrom v n s).ppu.latch = s.ppu.latch := by
  induction n generalizing s with
  | zero => rfl
  | succ n ih => simp only [State.dmaFrom, ih, State.touch_ppu_latch]

@[simp] theorem State.dmaFrom_ppu_lastWrite (v : Byte) (n : Nat) (s : State) :
    (State.dmaFrom v n s).ppu.lastWrite = s.ppu.lastWrite := by
  induction n generalizing s with
  | zero => rfl
  | succ n ih => simp only [State.dmaFrom, ih, State.touch_ppu_lastWrite]

@[simp] theorem State.dmaFrom_ppu_oamAddr (v : Byte) (n : Nat) (s : State) :
    (State.dmaFrom v n s).ppu.oamAddr = s.ppu.oamAddr := by
  induction n generalizing s with
  | zero => rfl
  | succ n ih => simp only [State.dmaFrom, ih, State.touch_ppu_oamAddr]

@[simp] theorem State.dmaFrom_ppu_scrollX (v : Byte) (n : Nat) (s : State) :
    (State.dmaFrom v n s).ppu.scrollX = s.ppu.scrollX := by
  induction n generalizing s with
  | zero => rfl
  | succ n ih => simp only [State.dmaFrom, ih, State.touch_ppu_scrollX]

@[simp] theorem State.dmaFrom_ppu_scrollY (v : Byte) (n : Nat) (s : State) :
    (State.dmaFrom v n s).ppu.scrollY = s.ppu.scrollY := by
  induction n generalizing s with
  | zero => rfl
  | succ n ih => simp only [State.dmaFrom, ih, State.touch_ppu_scrollY]

@[simp] theorem State.dmaFrom_ppu_addrHi (v : Byte) (n : Nat) (s : State) :
    (State.dmaFrom v n s).ppu.addrHi = s.ppu.addrHi := by
  induction n generalizing s with
  | zero => rfl
  | succ n ih => simp only [State.dmaFrom, ih, State.touch_ppu_addrHi]

@[simp] theorem State.dmaFrom_ppu_ciram (v : Byte) (n : Nat) (s : State) :
    (State.dmaFrom v n s).ppu.ciram = s.ppu.ciram := by
  induction n generalizing s with
  | zero => rfl
  | succ n ih => simp only [State.dmaFrom, ih, State.touch_ppu_ciram]

@[simp] theorem State.dmaFrom_ppu_palBd (v : Byte) (n : Nat) (s : State) :
    (State.dmaFrom v n s).ppu.palBd = s.ppu.palBd := by
  induction n generalizing s with
  | zero => rfl
  | succ n ih => simp only [State.dmaFrom, ih, State.touch_ppu_palBd]

@[simp] theorem State.dmaFrom_ppu_pal (v : Byte) (n : Nat) (s : State) :
    (State.dmaFrom v n s).ppu.pal = s.ppu.pal := by
  induction n generalizing s with
  | zero => rfl
  | succ n ih => simp only [State.dmaFrom, ih, State.touch_ppu_pal]

@[simp] theorem State.dmaFrom_ppu_scanline (v : Byte) (n : Nat) (s : State) :
    (State.dmaFrom v n s).ppu.scanline = s.ppu.scanline := by
  induction n generalizing s with
  | zero => rfl
  | succ n ih => simp only [State.dmaFrom, ih, State.touch_ppu_scanline]

@[simp] theorem State.dmaFrom_ppu_dot (v : Byte) (n : Nat) (s : State) :
    (State.dmaFrom v n s).ppu.dot = s.ppu.dot := by
  induction n generalizing s with
  | zero => rfl
  | succ n ih => simp only [State.dmaFrom, ih, State.touch_ppu_dot]

@[simp] theorem State.dmaFrom_ppu_ntByte (v : Byte) (n : Nat) (s : State) :
    (State.dmaFrom v n s).ppu.ntByte = s.ppu.ntByte := by
  induction n generalizing s with
  | zero => rfl
  | succ n ih => simp only [State.dmaFrom, ih, State.touch_ppu_ntByte]

@[simp] theorem State.dmaFrom_ppu_atByte (v : Byte) (n : Nat) (s : State) :
    (State.dmaFrom v n s).ppu.atByte = s.ppu.atByte := by
  induction n generalizing s with
  | zero => rfl
  | succ n ih => simp only [State.dmaFrom, ih, State.touch_ppu_atByte]

@[simp] theorem State.dmaFrom_ppu_ptLow (v : Byte) (n : Nat) (s : State) :
    (State.dmaFrom v n s).ppu.ptLow = s.ppu.ptLow := by
  induction n generalizing s with
  | zero => rfl
  | succ n ih => simp only [State.dmaFrom, ih, State.touch_ppu_ptLow]

@[simp] theorem State.dmaFrom_ppu_ptHigh (v : Byte) (n : Nat) (s : State) :
    (State.dmaFrom v n s).ppu.ptHigh = s.ppu.ptHigh := by
  induction n generalizing s with
  | zero => rfl
  | succ n ih => simp only [State.dmaFrom, ih, State.touch_ppu_ptHigh]

@[simp] theorem State.dmaFrom_ppu_selCount (v : Byte) (n : Nat) (s : State) :
    (State.dmaFrom v n s).ppu.selCount = s.ppu.selCount := by
  induction n generalizing s with
  | zero => rfl
  | succ n ih => simp only [State.dmaFrom, ih, State.touch_ppu_selCount]

@[simp] theorem State.dmaFrom_ppu_sel (v : Byte) (n : Nat) (s : State) :
    (State.dmaFrom v n s).ppu.sel = s.ppu.sel := by
  induction n generalizing s with
  | zero => rfl
  | succ n ih => simp only [State.dmaFrom, ih, State.touch_ppu_sel]

@[simp] theorem State.dmaFrom_ppu_bgOpaque (v : Byte) (n : Nat) (s : State) :
    (State.dmaFrom v n s).ppu.bgOpaque = s.ppu.bgOpaque := by
  induction n generalizing s with
  | zero => rfl
  | succ n ih => simp only [State.dmaFrom, ih, State.touch_ppu_bgOpaque]

@[simp] theorem State.dmaFrom_ppu_sprClaimed (v : Byte) (n : Nat) (s : State) :
    (State.dmaFrom v n s).ppu.sprClaimed = s.ppu.sprClaimed := by
  induction n generalizing s with
  | zero => rfl
  | succ n ih => simp only [State.dmaFrom, ih, State.touch_ppu_sprClaimed]

@[simp] theorem State.dmaFrom_ppu_fb (v : Byte) (n : Nat) (s : State) :
    (State.dmaFrom v n s).ppu.fb = s.ppu.fb := by
  induction n generalizing s with
  | zero => rfl
  | succ n ih => simp only [State.dmaFrom, ih, State.touch_ppu_fb]

@[simp] theorem State.dmaFrom_ppu_frame (v : Byte) (n : Nat) (s : State) :
    (State.dmaFrom v n s).ppu.frame = s.ppu.frame := by
  induction n generalizing s with
  | zero => rfl
  | succ n ih => simp only [State.dmaFrom, ih, State.touch_ppu_frame]

@[simp] theorem State.dmaFrom_ppu_frameReady (v : Byte) (n : Nat) (s : State) :
    (State.dmaFrom v n s).ppu.frameReady = s.ppu.frameReady := by
  induction n generalizing s with
  | zero => rfl
  | succ n ih => simp only [State.dmaFrom, ih, State.touch_ppu_frameReady]

@[simp] theorem State.dmaFrom_ppu_nmiGuard (v : Byte) (n : Nat) (s : State) :
    (State.dmaFrom v n s).ppu.nmiGuard = s.ppu.nmiGuard := by
  induction n generalizing s with
  | zero => rfl
  | succ n ih => simp only [State.dmaFrom, ih, State.touch_ppu_nmiGuard]

/-! ### A bus write -/

@[simp] theorem State.memWrite_cpu (s : State) (a : Word) (v : Byte) :
    (s.memWrite a v).cpu = s.cpu := by
  unfold State.memWrite State.portWrite; split_ifs <;> simp

@[simp] theorem State.memWrite_halted (s : State) (a : Word) (v : Byte) :
    (s.memWrite a v).halted = s.halted := by
  unfold State.memWrite State.portWrite; split_ifs <;> simp

@[simp] theorem State.memWrite_stopSignal (s : State) (a : Word) (v : Byte) :
    (s.memWrite a v).stopSignal = s.stopSignal := by
  unfold State.memWrite State.portWrite; split_ifs <;> simp

@[simp] theorem State.memWrite_nmiPending (s : State) (a : Word) (v : Byte) :
    (s.memWrite a v).nmiPending = s.nmiPending := by
  unfold State.memWrite State.portWrite; split_ifs <;> simp

@[simp] theorem State.memWrite_running (s : State) (a : Word) (v : Byte) :
    (s.memWrite a v).running = s.running := by
  unfold State.memWrite State.portWrite; split_ifs <;> simp

@[simp] theorem State.memWrite_params (s : State) (a : Word) (v : Byte) :
    (s.memWrite a v).params = s.params := by
  unfold State.memWrite State.portWrite; split_ifs <;> simp

@[simp] theorem Ppu.portWrite_s0 (c : Cart) (u : Ppu) (r : Port) (v : Byte) :
    (u.portWrite c r v).s0 = u.s0 := by
  cases r <;> simp only [Ppu.portWrite, Ppu.oamDataWrite, Ppu.scrollWrite, Ppu.addrWrite,
    Ppu.writeOwn, Ppu.palWrite] <;> split_ifs <;> rfl

@[simp] theorem State.memWrite_ppu_s0 (s : State) (a : Word) (v : Byte) :
    (s.memWrite a v).ppu.s0 = s.ppu.s0 := by
  unfold State.memWrite State.portWrite State.oamDma; split_ifs <;> simp

@[simp] theorem Ppu.portWrite_ovf (c : Cart) (u : Ppu) (r : Port) (v : Byte) :
    (u.portWrite c r v).ovf = u.ovf := by
  cases r <;> simp only [Ppu.portWrite, Ppu.oamDataWrite, Ppu.scrollWrite, Ppu.addrWrite,
    Ppu.writeOwn, Ppu.palWrite] <;> split_ifs <;> rfl

@[simp] theorem State.memWrite_ppu_ovf (s : State) (a : Word) (v : Byte) :
    (s.memWrite a v).ppu.ovf = s.ppu.ovf := by
  unfold State.memWrite State.portWrite State.oamDma; split_ifs <;> simp

@[simp] theorem Ppu.portWrite_scanline (c : Cart) (u : Ppu) (r : Port) (v : Byte) :
    (u.portWrite c r v).scanline = u.scanline := by
  cases r <;> simp only [Ppu.portWrite, Ppu.oamDataWrite, Ppu.scrollWrite, Ppu.addrWrite,
    Ppu.writeOwn, Ppu.palWrite] <;> split_ifs <;> rfl

@[simp] theorem State.memWrite_ppu_scanline (s : State) (a : Word) (v : Byte) :
    (s.memWrite a v).ppu.scanline = s.ppu.scanline := by
  unfold State.memWrite State.portWrite State.oamDma; split_ifs <;> simp

@[simp] theorem Ppu.portWrite_dot (c : Cart) (u : Ppu) (r : Port) (v : Byte) :
    (u.portWrite c r v).dot = u.dot := by
  cases r <;> simp only [Ppu.portWrite, Ppu.oamDataWrite, Ppu.scrollWrite, Ppu.addrWrite,
    Ppu.writeOwn, Ppu.palWrite] <;> split_ifs <;> rfl

@[simp] theorem State.memWrite_ppu_dot (s : State) (a : Word) (v : Byte) :
    (s.memWrite a v).ppu.dot = s.ppu.dot := by
  unfold State.memWrite State.portWrite State.oamDma; split_ifs <;> simp

@[simp] theorem Ppu.portWrite_sel (c : Cart) (u : Ppu) (r : Port) (v : Byte) :
    (u.portWrite c r v).sel = u.sel := by
  cases r <;> simp only [Ppu.portWrite, Ppu.oamDataWrite, Ppu.scrollWrite, Ppu.addrWrite,
    Ppu.writeOwn, Ppu.palWrite] <;> split_ifs <;> rfl

@[simp] theorem State.memWrite_ppu_sel (s : State) (a : Word) (v : Byte) :
    (s.memWrite a v).ppu.sel = s.ppu.sel := by
  unfold State.memWrite State.portWrite State.oamDma; split_ifs <;> simp

@[simp] theorem Ppu.portWrite_selCount (c : Cart) (u : Ppu) (r : Port) (v : Byte) :
    (u.portWrite c r v).selCount = u.selCount := by
  cases r <;> simp only [Ppu.portWrite, Ppu.oamDataWrite, Ppu.scrollWrite, Ppu.addrWrite,
    Ppu.writeOwn, Ppu.palWrite] <;> split_ifs <;> rfl

@[simp] theorem State.memWrite_ppu_selCount (s : State) (a : Word) (v : Byte) :
    (s.memWrite a v).ppu.selCount = s.ppu.selCount := by
  unfold State.memWrite State.portWrite State.oamDma; split_ifs <;> simp

@[simp] theorem Ppu.portWrite_bgOpaque (c : Cart) (u : Ppu) (r : Port) (v : Byte) :
    (u.portWrite c r v).bgOpaque = u.bgOpaque := by
  cases r <;> simp only [Ppu.portWrite, Ppu.oamDataWrite, Ppu.scrollWrite, Ppu.addrWrite,
    Ppu.writeOwn, Ppu.palWrite] <;> split_ifs <;> rfl

@[simp] theorem State.memWrite_ppu_bgOpaque (s : State) (a : Word) (v : Byte) :
    (s.memWrite a v).ppu.bgOpaque = s.ppu.bgOpaque := by
  unfold State.memWrite State.portWrite State.oamDma; split_ifs <;> simp

@[simp] theorem Ppu.portWrite_sprClaimed (c : Cart) (u : Ppu) (r : Port) (v : Byte) :
    (u.portWrite c r v).sprClaimed = u.sprClaimed := by
  cases r <;> simp only [Ppu.portWrite, Ppu.oamDataWrite, Ppu.scrollWrite, Ppu.addrWrite,
    Ppu.writeOwn, Ppu.palWrite] <;> split_ifs <;> rfl

@[simp] theorem State.memWrite_ppu_sprClaimed (s : State) (a : Word) (v : Byte) :
    (s.memWrite a v).ppu.sprClaimed = s.ppu.sprClaimed := by
  unfold State.memWrite State.portWrite State.oamDma; split_ifs <;> simp

@[simp] theorem Ppu.portWrite_fb (c : Cart) (u : Ppu) (r : Port) (v : Byte) :
    (u.portWrite c r v).fb = u.fb := by
  cases r <;> simp only [Ppu.portWrite, Ppu.oamDataWrite, Ppu.scrollWrite, Ppu.addrWrite,
    Ppu.writeOwn, Ppu.palWrite] <;> split_ifs <;> rfl

@[simp] theorem State.memWrite_ppu_fb (s : State) (a : Word) (v : Byte) :
    (s.memWrite a v).ppu.fb = s.ppu.fb := by
  unfold State.memWrite State.portWrite State.oamDma; split_ifs <;> simp

@[simp] theorem Ppu.portWrite_frame (c : Cart) (u : Ppu) (r : Port) (v : Byte) :
    (u.portWrite c r v).frame = u.frame := by
  cases r <;> simp only [Ppu.portWrite, Ppu.oamDataWrite, Ppu.scrollWrite, Ppu.addrWrite,
    Ppu.writeOwn, Ppu.palWrite] <;> split_ifs <;> rfl

@[simp] theorem State.memWrite_ppu_frame (s : State) (a : Word) (v : Byte) :
    (s.memWrite a v).ppu.frame = s.ppu.frame := by
  unfold State.memWrite State.portWrite State.oamDma; split_ifs <;> simp

@[simp] theorem Ppu.portWrite_frameReady (c : Cart) (u : Ppu) (r : Port) (v : Byte) :
    (u.portWrite c r v).frameReady = u.frameReady := by
  cases r <;> simp only [Ppu.portWrite, Ppu.oamDataWrite, Ppu.scrollWrite, Ppu.addrWrite,
    Ppu.writeOwn, Ppu.palWrite] <;> split_ifs <;> rfl

@[simp] theorem State.memWrite_ppu_frameReady (s : State) (a : Word) (v : Byte) :
    (s.memWrite a v).ppu.frameReady = s.ppu.frameReady := by
  unfold State.memWrite State.portWrite State.oamDma; split_ifs <;> simp

@[simp] theorem Ppu.portWrite_nmiGuard (c : Cart) (u : Ppu) (r : Port) (v : Byte) :
    (u.portWrite c r v).nmiGuard = u.nmiGuard := by
  cases r <;> simp only [Ppu.portWrite, Ppu.oamDataWrite, Ppu.scrollWrite, Ppu.addrWrite,
    Ppu.writeOwn, Ppu.palWrite] <;> split_ifs <;> rfl

@[simp] theorem State.memWrite_ppu_nmiGuard (s : State) (a : Word) (v : Byte) :
    (s.memWrite a v).ppu.nmiGuard = s.ppu.nmiGuard := by
  unfold State.memWrite State.portWrite State.oamDma; split_ifs <;> simp

/-! ### The bus does not look at the CPU's registers -/

/-- The bus never reads the CPU's registers: they commute with a read. -/
theorem State.touch_withCpu (s : State) (c : Cpu) (a : Word) :
    ({ s with cpu := c } : State).touch a = { s.touch a with cpu := c } := by
  unfold State.touch; split_ifs <;> rfl

theorem State.peek_withCpu (s : State) (c : Cpu) (a : Word) :
    ({ s with cpu := c } : State).peek a = s.peek a := rfl

theorem State.dmaFrom_withCpu (v : Byte) (n : Nat) (s : State) (c : Cpu) :
    State.dmaFrom v n { s with cpu := c } = { State.dmaFrom v n s with cpu := c } := by
  induction n generalizing s with
  | zero => rfl
  | succ n ih =>
    rw [State.dmaFrom, State.dmaFrom, ← ih]
    simp only [State.touch_withCpu, State.peek_withCpu]

/-- The registers commute with a bus write. -/
theorem State.memWrite_withCpu (s : State) (c : Cpu) (a : Word) (v : Byte) :
    ({ s with cpu := c } : State).memWrite a v = { s.memWrite a v with cpu := c } := by
  unfold State.memWrite
  split_ifs
  · rfl
  · rfl
  · exact State.dmaFrom_withCpu v 256 s c
  all_goals rfl

/-! ### Plain memory -/

/-- An address outside the ports is read without a change (20_memory.md R64). -/
theorem State.touch_of_plain (s : State) (a : Word) (h : a.toNat ≤ 0x1FFF ∨ 0x3FFF < a.toNat)
    (h' : a.toNat ≠ 0x4016) : s.touch a = s := by
  unfold State.touch
  split_ifs <;> first | omega | rfl

/-- A read outside the ports does not look at the PPU. -/
theorem State.peek_withPpu (s : State) (u : Ppu) (a : Word) (h : a.toNat ≤ 0x1FFF ∨ 0x3FFF < a.toNat) :
    ({ s with ppu := u } : State).peek a = s.peek a := by
  unfold State.peek
  by_cases h1 : a.toNat ≤ 0x1FFF
  · simp only [h1, if_true]
  · have h2 : ¬ a.toNat ≤ 0x3FFF := by omega
    simp only [h1, h2, if_false]

/-- A bus read neither looks at OAM nor changes it: only the byte it returns can come from OAM. -/
theorem State.touch_withOam (s : State) (m : Memory) (a : Word) :
    ({ s with ppu := { s.ppu with oam := m } } : State).touch a =
      { s.touch a with ppu := { (s.touch a).ppu with oam := m } } := by
  have h (r : Port) : Ppu.portTouch s.params s.cart { s.ppu with oam := m } r =
      { s.ppu.portTouch s.params s.cart r with oam := m } := by
    cases r <;> simp only [Ppu.portTouch] <;> first | rfl | (split <;> rfl)
  unfold State.touch
  split_ifs <;> simp [h]

theorem State.peek_wram (s : State) (a : Word) (h : a.toNat ≤ 0x1FFF) :
    s.peek a = s.wram.read (a.toNat % 0x800) := by simp [State.peek, h]

theorem State.memWrite_wram (s : State) (a : Word) (v : Byte) (h : a.toNat ≤ 0x1FFF) :
    s.memWrite a v = { s with wram := s.wram.write (a.toNat % 0x800) v } := by
  simp [State.memWrite, h]

theorem State.peek_rom (s : State) (a : Word) (h : 0x8000 ≤ a.toNat) : s.peek a = s.cart.prgRead a := by
  unfold State.peek
  split_ifs <;> first | omega | rfl

/-- Program ROM is a function of the cartridge, and no bus write changes what it reads
(20_memory.md R54). -/
theorem State.memWrite_rom (s : State) (a : Word) (v : Byte) (h : 0x8000 ≤ a.toNat) :
    s.memWrite a v = s := by
  unfold State.memWrite
  split_ifs <;> first | omega | rfl

end Sys2Proof.Machine
end

