-- ==== Sys2Proof/Laws/Decode.lean ====
section
/-! SUPPORT. The opcode map row by row, as the decoder reads it, and what follows for every byte. -/

namespace Sys2Proof

theorem decode3_ldaImm (b1 b2 : Byte) : decode3 0xA9 b1 b2 = some (.ldaImm b1) := rfl
theorem decode3_ldaZp (b1 b2 : Byte) : decode3 0xA5 b1 b2 = some (.ldaZp b1) := rfl
theorem decode3_ldaZpx (b1 b2 : Byte) : decode3 0xB5 b1 b2 = some (.ldaZpx b1) := rfl
theorem decode3_ldaAbs (b1 b2 : Byte) : decode3 0xAD b1 b2 = some (.ldaAbs (ofHiLo b2 b1)) := rfl
theorem decode3_ldaAbsx (b1 b2 : Byte) : decode3 0xBD b1 b2 = some (.ldaAbsx (ofHiLo b2 b1)) := rfl
theorem decode3_ldaAbsy (b1 b2 : Byte) : decode3 0xB9 b1 b2 = some (.ldaAbsy (ofHiLo b2 b1)) := rfl
theorem decode3_ldaIndx (b1 b2 : Byte) : decode3 0xA1 b1 b2 = some (.ldaIndx b1) := rfl
theorem decode3_ldaIndy (b1 b2 : Byte) : decode3 0xB1 b1 b2 = some (.ldaIndy b1) := rfl
theorem decode3_ldxImm (b1 b2 : Byte) : decode3 0xA2 b1 b2 = some (.ldxImm b1) := rfl
theorem decode3_ldxZp (b1 b2 : Byte) : decode3 0xA6 b1 b2 = some (.ldxZp b1) := rfl
theorem decode3_ldxZpy (b1 b2 : Byte) : decode3 0xB6 b1 b2 = some (.ldxZpy b1) := rfl
theorem decode3_ldxAbs (b1 b2 : Byte) : decode3 0xAE b1 b2 = some (.ldxAbs (ofHiLo b2 b1)) := rfl
theorem decode3_ldxAbsy (b1 b2 : Byte) : decode3 0xBE b1 b2 = some (.ldxAbsy (ofHiLo b2 b1)) := rfl
theorem decode3_ldyImm (b1 b2 : Byte) : decode3 0xA0 b1 b2 = some (.ldyImm b1) := rfl
theorem decode3_ldyZp (b1 b2 : Byte) : decode3 0xA4 b1 b2 = some (.ldyZp b1) := rfl
theorem decode3_ldyZpx (b1 b2 : Byte) : decode3 0xB4 b1 b2 = some (.ldyZpx b1) := rfl
theorem decode3_ldyAbs (b1 b2 : Byte) : decode3 0xAC b1 b2 = some (.ldyAbs (ofHiLo b2 b1)) := rfl
theorem decode3_ldyAbsx (b1 b2 : Byte) : decode3 0xBC b1 b2 = some (.ldyAbsx (ofHiLo b2 b1)) := rfl
theorem decode3_staZp (b1 b2 : Byte) : decode3 0x85 b1 b2 = some (.staZp b1) := rfl
theorem decode3_staZpx (b1 b2 : Byte) : decode3 0x95 b1 b2 = some (.staZpx b1) := rfl
theorem decode3_staAbs (b1 b2 : Byte) : decode3 0x8D b1 b2 = some (.staAbs (ofHiLo b2 b1)) := rfl
theorem decode3_staAbsx (b1 b2 : Byte) : decode3 0x9D b1 b2 = some (.staAbsx (ofHiLo b2 b1)) := rfl
theorem decode3_staAbsy (b1 b2 : Byte) : decode3 0x99 b1 b2 = some (.staAbsy (ofHiLo b2 b1)) := rfl
theorem decode3_staIndx (b1 b2 : Byte) : decode3 0x81 b1 b2 = some (.staIndx b1) := rfl
theorem decode3_staIndy (b1 b2 : Byte) : decode3 0x91 b1 b2 = some (.staIndy b1) := rfl
theorem decode3_stxZp (b1 b2 : Byte) : decode3 0x86 b1 b2 = some (.stxZp b1) := rfl
theorem decode3_stxZpy (b1 b2 : Byte) : decode3 0x96 b1 b2 = some (.stxZpy b1) := rfl
theorem decode3_stxAbs (b1 b2 : Byte) : decode3 0x8E b1 b2 = some (.stxAbs (ofHiLo b2 b1)) := rfl
theorem decode3_styZp (b1 b2 : Byte) : decode3 0x84 b1 b2 = some (.styZp b1) := rfl
theorem decode3_styZpx (b1 b2 : Byte) : decode3 0x94 b1 b2 = some (.styZpx b1) := rfl
theorem decode3_styAbs (b1 b2 : Byte) : decode3 0x8C b1 b2 = some (.styAbs (ofHiLo b2 b1)) := rfl
theorem decode3_tax (b1 b2 : Byte) : decode3 0xAA b1 b2 = some .tax := rfl
theorem decode3_tay (b1 b2 : Byte) : decode3 0xA8 b1 b2 = some .tay := rfl
theorem decode3_txa (b1 b2 : Byte) : decode3 0x8A b1 b2 = some .txa := rfl
theorem decode3_tya (b1 b2 : Byte) : decode3 0x98 b1 b2 = some .tya := rfl
theorem decode3_tsx (b1 b2 : Byte) : decode3 0xBA b1 b2 = some .tsx := rfl
theorem decode3_txs (b1 b2 : Byte) : decode3 0x9A b1 b2 = some .txs := rfl
theorem decode3_adcImm (b1 b2 : Byte) : decode3 0x69 b1 b2 = some (.adcImm b1) := rfl
theorem decode3_adcZp (b1 b2 : Byte) : decode3 0x65 b1 b2 = some (.adcZp b1) := rfl
theorem decode3_adcZpx (b1 b2 : Byte) : decode3 0x75 b1 b2 = some (.adcZpx b1) := rfl
theorem decode3_adcAbs (b1 b2 : Byte) : decode3 0x6D b1 b2 = some (.adcAbs (ofHiLo b2 b1)) := rfl
theorem decode3_adcAbsx (b1 b2 : Byte) : decode3 0x7D b1 b2 = some (.adcAbsx (ofHiLo b2 b1)) := rfl
theorem decode3_adcAbsy (b1 b2 : Byte) : decode3 0x79 b1 b2 = some (.adcAbsy (ofHiLo b2 b1)) := rfl
theorem decode3_adcIndx (b1 b2 : Byte) : decode3 0x61 b1 b2 = some (.adcIndx b1) := rfl
theorem decode3_adcIndy (b1 b2 : Byte) : decode3 0x71 b1 b2 = some (.adcIndy b1) := rfl
theorem decode3_sbcImm (b1 b2 : Byte) : decode3 0xE9 b1 b2 = some (.sbcImm b1) := rfl
theorem decode3_sbcZp (b1 b2 : Byte) : decode3 0xE5 b1 b2 = some (.sbcZp b1) := rfl
theorem decode3_sbcZpx (b1 b2 : Byte) : decode3 0xF5 b1 b2 = some (.sbcZpx b1) := rfl
theorem decode3_sbcAbs (b1 b2 : Byte) : decode3 0xED b1 b2 = some (.sbcAbs (ofHiLo b2 b1)) := rfl
theorem decode3_sbcAbsx (b1 b2 : Byte) : decode3 0xFD b1 b2 = some (.sbcAbsx (ofHiLo b2 b1)) := rfl
theorem decode3_sbcAbsy (b1 b2 : Byte) : decode3 0xF9 b1 b2 = some (.sbcAbsy (ofHiLo b2 b1)) := rfl
theorem decode3_sbcIndx (b1 b2 : Byte) : decode3 0xE1 b1 b2 = some (.sbcIndx b1) := rfl
theorem decode3_sbcIndy (b1 b2 : Byte) : decode3 0xF1 b1 b2 = some (.sbcIndy b1) := rfl
theorem decode3_andImm (b1 b2 : Byte) : decode3 0x29 b1 b2 = some (.andImm b1) := rfl
theorem decode3_andZp (b1 b2 : Byte) : decode3 0x25 b1 b2 = some (.andZp b1) := rfl
theorem decode3_andZpx (b1 b2 : Byte) : decode3 0x35 b1 b2 = some (.andZpx b1) := rfl
theorem decode3_andAbs (b1 b2 : Byte) : decode3 0x2D b1 b2 = some (.andAbs (ofHiLo b2 b1)) := rfl
theorem decode3_andAbsx (b1 b2 : Byte) : decode3 0x3D b1 b2 = some (.andAbsx (ofHiLo b2 b1)) := rfl
theorem decode3_andAbsy (b1 b2 : Byte) : decode3 0x39 b1 b2 = some (.andAbsy (ofHiLo b2 b1)) := rfl
theorem decode3_andIndx (b1 b2 : Byte) : decode3 0x21 b1 b2 = some (.andIndx b1) := rfl
theorem decode3_andIndy (b1 b2 : Byte) : decode3 0x31 b1 b2 = some (.andIndy b1) := rfl
theorem decode3_oraImm (b1 b2 : Byte) : decode3 0x09 b1 b2 = some (.oraImm b1) := rfl
theorem decode3_oraZp (b1 b2 : Byte) : decode3 0x05 b1 b2 = some (.oraZp b1) := rfl
theorem decode3_oraZpx (b1 b2 : Byte) : decode3 0x15 b1 b2 = some (.oraZpx b1) := rfl
theorem decode3_oraAbs (b1 b2 : Byte) : decode3 0x0D b1 b2 = some (.oraAbs (ofHiLo b2 b1)) := rfl
theorem decode3_oraAbsx (b1 b2 : Byte) : decode3 0x1D b1 b2 = some (.oraAbsx (ofHiLo b2 b1)) := rfl
theorem decode3_oraAbsy (b1 b2 : Byte) : decode3 0x19 b1 b2 = some (.oraAbsy (ofHiLo b2 b1)) := rfl
theorem decode3_oraIndx (b1 b2 : Byte) : decode3 0x01 b1 b2 = some (.oraIndx b1) := rfl
theorem decode3_oraIndy (b1 b2 : Byte) : decode3 0x11 b1 b2 = some (.oraIndy b1) := rfl
theorem decode3_eorImm (b1 b2 : Byte) : decode3 0x49 b1 b2 = some (.eorImm b1) := rfl
theorem decode3_eorZp (b1 b2 : Byte) : decode3 0x45 b1 b2 = some (.eorZp b1) := rfl
theorem decode3_eorZpx (b1 b2 : Byte) : decode3 0x55 b1 b2 = some (.eorZpx b1) := rfl
theorem decode3_eorAbs (b1 b2 : Byte) : decode3 0x4D b1 b2 = some (.eorAbs (ofHiLo b2 b1)) := rfl
theorem decode3_eorAbsx (b1 b2 : Byte) : decode3 0x5D b1 b2 = some (.eorAbsx (ofHiLo b2 b1)) := rfl
theorem decode3_eorAbsy (b1 b2 : Byte) : decode3 0x59 b1 b2 = some (.eorAbsy (ofHiLo b2 b1)) := rfl
theorem decode3_eorIndx (b1 b2 : Byte) : decode3 0x41 b1 b2 = some (.eorIndx b1) := rfl
theorem decode3_eorIndy (b1 b2 : Byte) : decode3 0x51 b1 b2 = some (.eorIndy b1) := rfl
theorem decode3_bitZp (b1 b2 : Byte) : decode3 0x24 b1 b2 = some (.bitZp b1) := rfl
theorem decode3_bitAbs (b1 b2 : Byte) : decode3 0x2C b1 b2 = some (.bitAbs (ofHiLo b2 b1)) := rfl
theorem decode3_cmpImm (b1 b2 : Byte) : decode3 0xC9 b1 b2 = some (.cmpImm b1) := rfl
theorem decode3_cmpZp (b1 b2 : Byte) : decode3 0xC5 b1 b2 = some (.cmpZp b1) := rfl
theorem decode3_cmpZpx (b1 b2 : Byte) : decode3 0xD5 b1 b2 = some (.cmpZpx b1) := rfl
theorem decode3_cmpAbs (b1 b2 : Byte) : decode3 0xCD b1 b2 = some (.cmpAbs (ofHiLo b2 b1)) := rfl
theorem decode3_cmpAbsx (b1 b2 : Byte) : decode3 0xDD b1 b2 = some (.cmpAbsx (ofHiLo b2 b1)) := rfl
theorem decode3_cmpAbsy (b1 b2 : Byte) : decode3 0xD9 b1 b2 = some (.cmpAbsy (ofHiLo b2 b1)) := rfl
theorem decode3_cmpIndx (b1 b2 : Byte) : decode3 0xC1 b1 b2 = some (.cmpIndx b1) := rfl
theorem decode3_cmpIndy (b1 b2 : Byte) : decode3 0xD1 b1 b2 = some (.cmpIndy b1) := rfl
theorem decode3_cpxImm (b1 b2 : Byte) : decode3 0xE0 b1 b2 = some (.cpxImm b1) := rfl
theorem decode3_cpxZp (b1 b2 : Byte) : decode3 0xE4 b1 b2 = some (.cpxZp b1) := rfl
theorem decode3_cpxAbs (b1 b2 : Byte) : decode3 0xEC b1 b2 = some (.cpxAbs (ofHiLo b2 b1)) := rfl
theorem decode3_cpyImm (b1 b2 : Byte) : decode3 0xC0 b1 b2 = some (.cpyImm b1) := rfl
theorem decode3_cpyZp (b1 b2 : Byte) : decode3 0xC4 b1 b2 = some (.cpyZp b1) := rfl
theorem decode3_cpyAbs (b1 b2 : Byte) : decode3 0xCC b1 b2 = some (.cpyAbs (ofHiLo b2 b1)) := rfl
theorem decode3_incZp (b1 b2 : Byte) : decode3 0xE6 b1 b2 = some (.incZp b1) := rfl
theorem decode3_incZpx (b1 b2 : Byte) : decode3 0xF6 b1 b2 = some (.incZpx b1) := rfl
theorem decode3_incAbs (b1 b2 : Byte) : decode3 0xEE b1 b2 = some (.incAbs (ofHiLo b2 b1)) := rfl
theorem decode3_incAbsx (b1 b2 : Byte) : decode3 0xFE b1 b2 = some (.incAbsx (ofHiLo b2 b1)) := rfl
theorem decode3_decZp (b1 b2 : Byte) : decode3 0xC6 b1 b2 = some (.decZp b1) := rfl
theorem decode3_decZpx (b1 b2 : Byte) : decode3 0xD6 b1 b2 = some (.decZpx b1) := rfl
theorem decode3_decAbs (b1 b2 : Byte) : decode3 0xCE b1 b2 = some (.decAbs (ofHiLo b2 b1)) := rfl
theorem decode3_decAbsx (b1 b2 : Byte) : decode3 0xDE b1 b2 = some (.decAbsx (ofHiLo b2 b1)) := rfl
theorem decode3_inx (b1 b2 : Byte) : decode3 0xE8 b1 b2 = some .inx := rfl
theorem decode3_iny (b1 b2 : Byte) : decode3 0xC8 b1 b2 = some .iny := rfl
theorem decode3_dex (b1 b2 : Byte) : decode3 0xCA b1 b2 = some .dex := rfl
theorem decode3_dey (b1 b2 : Byte) : decode3 0x88 b1 b2 = some .dey := rfl
theorem decode3_aslAcc (b1 b2 : Byte) : decode3 0x0A b1 b2 = some .aslAcc := rfl
theorem decode3_aslZp (b1 b2 : Byte) : decode3 0x06 b1 b2 = some (.aslZp b1) := rfl
theorem decode3_aslZpx (b1 b2 : Byte) : decode3 0x16 b1 b2 = some (.aslZpx b1) := rfl
theorem decode3_aslAbs (b1 b2 : Byte) : decode3 0x0E b1 b2 = some (.aslAbs (ofHiLo b2 b1)) := rfl
theorem decode3_aslAbsx (b1 b2 : Byte) : decode3 0x1E b1 b2 = some (.aslAbsx (ofHiLo b2 b1)) := rfl
theorem decode3_lsrAcc (b1 b2 : Byte) : decode3 0x4A b1 b2 = some .lsrAcc := rfl
theorem decode3_lsrZp (b1 b2 : Byte) : decode3 0x46 b1 b2 = some (.lsrZp b1) := rfl
theorem decode3_lsrZpx (b1 b2 : Byte) : decode3 0x56 b1 b2 = some (.lsrZpx b1) := rfl
theorem decode3_lsrAbs (b1 b2 : Byte) : decode3 0x4E b1 b2 = some (.lsrAbs (ofHiLo b2 b1)) := rfl
theorem decode3_lsrAbsx (b1 b2 : Byte) : decode3 0x5E b1 b2 = some (.lsrAbsx (ofHiLo b2 b1)) := rfl
theorem decode3_rolAcc (b1 b2 : Byte) : decode3 0x2A b1 b2 = some .rolAcc := rfl
theorem decode3_rolZp (b1 b2 : Byte) : decode3 0x26 b1 b2 = some (.rolZp b1) := rfl
theorem decode3_rolZpx (b1 b2 : Byte) : decode3 0x36 b1 b2 = some (.rolZpx b1) := rfl
theorem decode3_rolAbs (b1 b2 : Byte) : decode3 0x2E b1 b2 = some (.rolAbs (ofHiLo b2 b1)) := rfl
theorem decode3_rolAbsx (b1 b2 : Byte) : decode3 0x3E b1 b2 = some (.rolAbsx (ofHiLo b2 b1)) := rfl
theorem decode3_rorAcc (b1 b2 : Byte) : decode3 0x6A b1 b2 = some .rorAcc := rfl
theorem decode3_rorZp (b1 b2 : Byte) : decode3 0x66 b1 b2 = some (.rorZp b1) := rfl
theorem decode3_rorZpx (b1 b2 : Byte) : decode3 0x76 b1 b2 = some (.rorZpx b1) := rfl
theorem decode3_rorAbs (b1 b2 : Byte) : decode3 0x6E b1 b2 = some (.rorAbs (ofHiLo b2 b1)) := rfl
theorem decode3_rorAbsx (b1 b2 : Byte) : decode3 0x7E b1 b2 = some (.rorAbsx (ofHiLo b2 b1)) := rfl
theorem decode3_bcc (b1 b2 : Byte) : decode3 0x90 b1 b2 = some (.bcc b1) := rfl
theorem decode3_bcs (b1 b2 : Byte) : decode3 0xB0 b1 b2 = some (.bcs b1) := rfl
theorem decode3_beq (b1 b2 : Byte) : decode3 0xF0 b1 b2 = some (.beq b1) := rfl
theorem decode3_bmi (b1 b2 : Byte) : decode3 0x30 b1 b2 = some (.bmi b1) := rfl
theorem decode3_bne (b1 b2 : Byte) : decode3 0xD0 b1 b2 = some (.bne b1) := rfl
theorem decode3_bpl (b1 b2 : Byte) : decode3 0x10 b1 b2 = some (.bpl b1) := rfl
theorem decode3_bvc (b1 b2 : Byte) : decode3 0x50 b1 b2 = some (.bvc b1) := rfl
theorem decode3_bvs (b1 b2 : Byte) : decode3 0x70 b1 b2 = some (.bvs b1) := rfl
theorem decode3_jmpAbs (b1 b2 : Byte) : decode3 0x4C b1 b2 = some (.jmpAbs (ofHiLo b2 b1)) := rfl
theorem decode3_jmpInd (b1 b2 : Byte) : decode3 0x6C b1 b2 = some (.jmpInd (ofHiLo b2 b1)) := rfl
theorem decode3_jsrAbs (b1 b2 : Byte) : decode3 0x20 b1 b2 = some (.jsrAbs (ofHiLo b2 b1)) := rfl
theorem decode3_rts (b1 b2 : Byte) : decode3 0x60 b1 b2 = some .rts := rfl
theorem decode3_pha (b1 b2 : Byte) : decode3 0x48 b1 b2 = some .pha := rfl
theorem decode3_php (b1 b2 : Byte) : decode3 0x08 b1 b2 = some .php := rfl
theorem decode3_pla (b1 b2 : Byte) : decode3 0x68 b1 b2 = some .pla := rfl
theorem decode3_plp (b1 b2 : Byte) : decode3 0x28 b1 b2 = some .plp := rfl
theorem decode3_clc (b1 b2 : Byte) : decode3 0x18 b1 b2 = some .clc := rfl
theorem decode3_cld (b1 b2 : Byte) : decode3 0xD8 b1 b2 = some .cld := rfl
theorem decode3_cli (b1 b2 : Byte) : decode3 0x58 b1 b2 = some .cli := rfl
theorem decode3_clv (b1 b2 : Byte) : decode3 0xB8 b1 b2 = some .clv := rfl
theorem decode3_sec (b1 b2 : Byte) : decode3 0x38 b1 b2 = some .sec := rfl
theorem decode3_sed (b1 b2 : Byte) : decode3 0xF8 b1 b2 = some .sed := rfl
theorem decode3_sei (b1 b2 : Byte) : decode3 0x78 b1 b2 = some .sei := rfl
theorem decode3_brk (b1 b2 : Byte) : decode3 0x00 b1 b2 = some .brk := rfl
theorem decode3_rti (b1 b2 : Byte) : decode3 0x40 b1 b2 = some .rti := rfl
theorem decode3_nop (b1 b2 : Byte) : decode3 0xEA b1 b2 = some .nop := rfl

/-- The two bytes of a word, put together again. -/
theorem ofHiLo_bytes (w : Word) : ofHiLo (hiByte w) (loByte w) = w := by
  apply BitVec.eq_of_getLsbD_eq
  intro i hi
  simp only [ofHiLo, hiByte, loByte, BitVec.getLsbD_append, BitVec.getLsbD_setWidth,
    BitVec.getLsbD_ushiftRight]
  by_cases h : i < 8
  · simp [h]
  · simp [h, show i - 8 < 8 by omega, show 8 + (i - 8) = i by omega]

theorem hiByte_ofHiLo (h l : Byte) : hiByte (ofHiLo h l) = h := by
  apply BitVec.eq_of_getLsbD_eq
  intro i hi
  simp only [ofHiLo, hiByte, BitVec.getLsbD_append, BitVec.getLsbD_setWidth,
    BitVec.getLsbD_ushiftRight]
  simp [hi]

theorem loByte_ofHiLo (h l : Byte) : loByte (ofHiLo h l) = l := by
  apply BitVec.eq_of_getLsbD_eq
  intro i hi
  simp only [ofHiLo, loByte, BitVec.getLsbD_append, BitVec.getLsbD_setWidth]
  simp [hi]

/-- An instruction has as many operand bytes as its length says. -/
theorem operand_length (i : Instr) : i.info.operand.length + 1 = i.length := by cases i <;> rfl

theorem length_le (i : Instr) : i.length ≤ 3 := by
  unfold Instr.length
  cases i.mode <;> decide

/-- The byte that decodes to an instruction is its opcode. -/
theorem opcode_of_decode3 {op b1 b2 : Byte} {i : Instr} (h : decode3 op b1 b2 = some i) :
    i.opcode = op := by
  have hop : op = BitVec.ofNat 8 (16 * (op.toNat / 16) + op.toNat % 16) := by
    apply BitVec.eq_of_toNat_eq; simp; omega
  have h1 : op.toNat / 16 < 16 := by have := op.isLt; omega
  unfold decode3 at h
  generalize op.toNat / 16 = hi at *
  generalize op.toNat % 16 = lo at *
  subst hop
  interval_cases hi <;> dsimp only at h <;>
    (simp only [decodeRow0, decodeRow1, decodeRow2, decodeRow3, decodeRow4, decodeRow5, decodeRow6,
      decodeRow7, decodeRow8, decodeRow9, decodeRowA, decodeRowB, decodeRowC, decodeRowD, decodeRowE,
      decodeRowF] at h
     split at h <;> cases h <;> rfl)

end Sys2Proof
end

