-- ==== Sys2Proof/Laws/Exec.lean ====
section
/-! SUPPORT. What `exec` answers for each instruction, in terms of the shared operations: always a
next state; and what it can do to everything but the CPU's registers: bus reads, and bus writes at
the addresses `State.stores` lists, in order. -/

namespace Sys2Proof.Machine

theorem exec_ldaImm (v : Byte) (s : State) : exec (.ldaImm v) s = .next (s.loadA (.imm v)) := rfl

theorem exec_ldaZp (b : Byte) (s : State) :
    exec (.ldaZp b) s = .next (s.loadA (.mem (.zp b))) := rfl

theorem exec_ldaZpx (b : Byte) (s : State) :
    exec (.ldaZpx b) s = .next (s.loadA (.mem (.zpx b))) := rfl

theorem exec_ldaAbs (w : Word) (s : State) :
    exec (.ldaAbs w) s = .next (s.loadA (.mem (.abs w))) := rfl

theorem exec_ldaAbsx (w : Word) (s : State) :
    exec (.ldaAbsx w) s = .next (s.loadA (.mem (.absx w))) := rfl

theorem exec_ldaAbsy (w : Word) (s : State) :
    exec (.ldaAbsy w) s = .next (s.loadA (.mem (.absy w))) := rfl

theorem exec_ldaIndx (b : Byte) (s : State) :
    exec (.ldaIndx b) s = .next (s.loadA (.mem (.indx b))) := rfl

theorem exec_ldaIndy (b : Byte) (s : State) :
    exec (.ldaIndy b) s = .next (s.loadA (.mem (.indy b))) := rfl

theorem exec_ldxImm (v : Byte) (s : State) : exec (.ldxImm v) s = .next (s.loadX (.imm v)) := rfl

theorem exec_ldxZp (b : Byte) (s : State) :
    exec (.ldxZp b) s = .next (s.loadX (.mem (.zp b))) := rfl

theorem exec_ldxZpy (b : Byte) (s : State) :
    exec (.ldxZpy b) s = .next (s.loadX (.mem (.zpy b))) := rfl

theorem exec_ldxAbs (w : Word) (s : State) :
    exec (.ldxAbs w) s = .next (s.loadX (.mem (.abs w))) := rfl

theorem exec_ldxAbsy (w : Word) (s : State) :
    exec (.ldxAbsy w) s = .next (s.loadX (.mem (.absy w))) := rfl

theorem exec_ldyImm (v : Byte) (s : State) : exec (.ldyImm v) s = .next (s.loadY (.imm v)) := rfl

theorem exec_ldyZp (b : Byte) (s : State) :
    exec (.ldyZp b) s = .next (s.loadY (.mem (.zp b))) := rfl

theorem exec_ldyZpx (b : Byte) (s : State) :
    exec (.ldyZpx b) s = .next (s.loadY (.mem (.zpx b))) := rfl

theorem exec_ldyAbs (w : Word) (s : State) :
    exec (.ldyAbs w) s = .next (s.loadY (.mem (.abs w))) := rfl

theorem exec_ldyAbsx (w : Word) (s : State) :
    exec (.ldyAbsx w) s = .next (s.loadY (.mem (.absx w))) := rfl

theorem exec_staZp (b : Byte) (s : State) :
    exec (.staZp b) s = .next (s.store (.zp b) s.cpu.a) := rfl

theorem exec_staZpx (b : Byte) (s : State) :
    exec (.staZpx b) s = .next (s.store (.zpx b) s.cpu.a) := rfl

theorem exec_staAbs (w : Word) (s : State) :
    exec (.staAbs w) s = .next (s.store (.abs w) s.cpu.a) := rfl

theorem exec_staAbsx (w : Word) (s : State) :
    exec (.staAbsx w) s = .next (s.store (.absx w) s.cpu.a) := rfl

theorem exec_staAbsy (w : Word) (s : State) :
    exec (.staAbsy w) s = .next (s.store (.absy w) s.cpu.a) := rfl

theorem exec_staIndx (b : Byte) (s : State) :
    exec (.staIndx b) s = .next (s.store (.indx b) s.cpu.a) := rfl

theorem exec_staIndy (b : Byte) (s : State) :
    exec (.staIndy b) s = .next (s.store (.indy b) s.cpu.a) := rfl

theorem exec_stxZp (b : Byte) (s : State) :
    exec (.stxZp b) s = .next (s.store (.zp b) s.cpu.x) := rfl

theorem exec_stxZpy (b : Byte) (s : State) :
    exec (.stxZpy b) s = .next (s.store (.zpy b) s.cpu.x) := rfl

theorem exec_stxAbs (w : Word) (s : State) :
    exec (.stxAbs w) s = .next (s.store (.abs w) s.cpu.x) := rfl

theorem exec_styZp (b : Byte) (s : State) :
    exec (.styZp b) s = .next (s.store (.zp b) s.cpu.y) := rfl

theorem exec_styZpx (b : Byte) (s : State) :
    exec (.styZpx b) s = .next (s.store (.zpx b) s.cpu.y) := rfl

theorem exec_styAbs (w : Word) (s : State) :
    exec (.styAbs w) s = .next (s.store (.abs w) s.cpu.y) := rfl

theorem exec_tax (s : State) : exec .tax s = .next ((s.setX s.cpu.a).setZN s.cpu.a) := rfl

theorem exec_tay (s : State) : exec .tay s = .next ((s.setY s.cpu.a).setZN s.cpu.a) := rfl

theorem exec_txa (s : State) : exec .txa s = .next ((s.setA s.cpu.x).setZN s.cpu.x) := rfl

theorem exec_tya (s : State) : exec .tya s = .next ((s.setA s.cpu.y).setZN s.cpu.y) := rfl

theorem exec_tsx (s : State) : exec .tsx s = .next ((s.setX s.cpu.s).setZN s.cpu.s) := rfl

theorem exec_txs (s : State) : exec .txs s = .next (s.setS s.cpu.x) := rfl

theorem exec_adcImm (v : Byte) (s : State) : exec (.adcImm v) s = .next (s.addA (.imm v)) := rfl

theorem exec_adcZp (b : Byte) (s : State) : exec (.adcZp b) s = .next (s.addA (.mem (.zp b))) := rfl

theorem exec_adcZpx (b : Byte) (s : State) :
    exec (.adcZpx b) s = .next (s.addA (.mem (.zpx b))) := rfl

theorem exec_adcAbs (w : Word) (s : State) :
    exec (.adcAbs w) s = .next (s.addA (.mem (.abs w))) := rfl

theorem exec_adcAbsx (w : Word) (s : State) :
    exec (.adcAbsx w) s = .next (s.addA (.mem (.absx w))) := rfl

theorem exec_adcAbsy (w : Word) (s : State) :
    exec (.adcAbsy w) s = .next (s.addA (.mem (.absy w))) := rfl

theorem exec_adcIndx (b : Byte) (s : State) :
    exec (.adcIndx b) s = .next (s.addA (.mem (.indx b))) := rfl

theorem exec_adcIndy (b : Byte) (s : State) :
    exec (.adcIndy b) s = .next (s.addA (.mem (.indy b))) := rfl

theorem exec_sbcImm (v : Byte) (s : State) : exec (.sbcImm v) s = .next (s.subA (.imm v)) := rfl

theorem exec_sbcZp (b : Byte) (s : State) : exec (.sbcZp b) s = .next (s.subA (.mem (.zp b))) := rfl

theorem exec_sbcZpx (b : Byte) (s : State) :
    exec (.sbcZpx b) s = .next (s.subA (.mem (.zpx b))) := rfl

theorem exec_sbcAbs (w : Word) (s : State) :
    exec (.sbcAbs w) s = .next (s.subA (.mem (.abs w))) := rfl

theorem exec_sbcAbsx (w : Word) (s : State) :
    exec (.sbcAbsx w) s = .next (s.subA (.mem (.absx w))) := rfl

theorem exec_sbcAbsy (w : Word) (s : State) :
    exec (.sbcAbsy w) s = .next (s.subA (.mem (.absy w))) := rfl

theorem exec_sbcIndx (b : Byte) (s : State) :
    exec (.sbcIndx b) s = .next (s.subA (.mem (.indx b))) := rfl

theorem exec_sbcIndy (b : Byte) (s : State) :
    exec (.sbcIndy b) s = .next (s.subA (.mem (.indy b))) := rfl

theorem exec_andImm (v : Byte) (s : State) : exec (.andImm v) s = .next (s.andA (.imm v)) := rfl

theorem exec_andZp (b : Byte) (s : State) : exec (.andZp b) s = .next (s.andA (.mem (.zp b))) := rfl

theorem exec_andZpx (b : Byte) (s : State) :
    exec (.andZpx b) s = .next (s.andA (.mem (.zpx b))) := rfl

theorem exec_andAbs (w : Word) (s : State) :
    exec (.andAbs w) s = .next (s.andA (.mem (.abs w))) := rfl

theorem exec_andAbsx (w : Word) (s : State) :
    exec (.andAbsx w) s = .next (s.andA (.mem (.absx w))) := rfl

theorem exec_andAbsy (w : Word) (s : State) :
    exec (.andAbsy w) s = .next (s.andA (.mem (.absy w))) := rfl

theorem exec_andIndx (b : Byte) (s : State) :
    exec (.andIndx b) s = .next (s.andA (.mem (.indx b))) := rfl

theorem exec_andIndy (b : Byte) (s : State) :
    exec (.andIndy b) s = .next (s.andA (.mem (.indy b))) := rfl

theorem exec_oraImm (v : Byte) (s : State) : exec (.oraImm v) s = .next (s.oraA (.imm v)) := rfl

theorem exec_oraZp (b : Byte) (s : State) : exec (.oraZp b) s = .next (s.oraA (.mem (.zp b))) := rfl

theorem exec_oraZpx (b : Byte) (s : State) :
    exec (.oraZpx b) s = .next (s.oraA (.mem (.zpx b))) := rfl

theorem exec_oraAbs (w : Word) (s : State) :
    exec (.oraAbs w) s = .next (s.oraA (.mem (.abs w))) := rfl

theorem exec_oraAbsx (w : Word) (s : State) :
    exec (.oraAbsx w) s = .next (s.oraA (.mem (.absx w))) := rfl

theorem exec_oraAbsy (w : Word) (s : State) :
    exec (.oraAbsy w) s = .next (s.oraA (.mem (.absy w))) := rfl

theorem exec_oraIndx (b : Byte) (s : State) :
    exec (.oraIndx b) s = .next (s.oraA (.mem (.indx b))) := rfl

theorem exec_oraIndy (b : Byte) (s : State) :
    exec (.oraIndy b) s = .next (s.oraA (.mem (.indy b))) := rfl

theorem exec_eorImm (v : Byte) (s : State) : exec (.eorImm v) s = .next (s.eorA (.imm v)) := rfl

theorem exec_eorZp (b : Byte) (s : State) : exec (.eorZp b) s = .next (s.eorA (.mem (.zp b))) := rfl

theorem exec_eorZpx (b : Byte) (s : State) :
    exec (.eorZpx b) s = .next (s.eorA (.mem (.zpx b))) := rfl

theorem exec_eorAbs (w : Word) (s : State) :
    exec (.eorAbs w) s = .next (s.eorA (.mem (.abs w))) := rfl

theorem exec_eorAbsx (w : Word) (s : State) :
    exec (.eorAbsx w) s = .next (s.eorA (.mem (.absx w))) := rfl

theorem exec_eorAbsy (w : Word) (s : State) :
    exec (.eorAbsy w) s = .next (s.eorA (.mem (.absy w))) := rfl

theorem exec_eorIndx (b : Byte) (s : State) :
    exec (.eorIndx b) s = .next (s.eorA (.mem (.indx b))) := rfl

theorem exec_eorIndy (b : Byte) (s : State) :
    exec (.eorIndy b) s = .next (s.eorA (.mem (.indy b))) := rfl

theorem exec_bitZp (b : Byte) (s : State) : exec (.bitZp b) s = .next (s.testA (.zp b)) := rfl

theorem exec_bitAbs (w : Word) (s : State) : exec (.bitAbs w) s = .next (s.testA (.abs w)) := rfl

theorem exec_cmpImm (v : Byte) (s : State) :
    exec (.cmpImm v) s = .next (s.compareWith s.cpu.a (.imm v)) := rfl

theorem exec_cmpZp (b : Byte) (s : State) :
    exec (.cmpZp b) s = .next (s.compareWith s.cpu.a (.mem (.zp b))) := rfl

theorem exec_cmpZpx (b : Byte) (s : State) :
    exec (.cmpZpx b) s = .next (s.compareWith s.cpu.a (.mem (.zpx b))) := rfl

theorem exec_cmpAbs (w : Word) (s : State) :
    exec (.cmpAbs w) s = .next (s.compareWith s.cpu.a (.mem (.abs w))) := rfl

theorem exec_cmpAbsx (w : Word) (s : State) :
    exec (.cmpAbsx w) s = .next (s.compareWith s.cpu.a (.mem (.absx w))) := rfl

theorem exec_cmpAbsy (w : Word) (s : State) :
    exec (.cmpAbsy w) s = .next (s.compareWith s.cpu.a (.mem (.absy w))) := rfl

theorem exec_cmpIndx (b : Byte) (s : State) :
    exec (.cmpIndx b) s = .next (s.compareWith s.cpu.a (.mem (.indx b))) := rfl

theorem exec_cmpIndy (b : Byte) (s : State) :
    exec (.cmpIndy b) s = .next (s.compareWith s.cpu.a (.mem (.indy b))) := rfl

theorem exec_cpxImm (v : Byte) (s : State) :
    exec (.cpxImm v) s = .next (s.compareWith s.cpu.x (.imm v)) := rfl

theorem exec_cpxZp (b : Byte) (s : State) :
    exec (.cpxZp b) s = .next (s.compareWith s.cpu.x (.mem (.zp b))) := rfl

theorem exec_cpxAbs (w : Word) (s : State) :
    exec (.cpxAbs w) s = .next (s.compareWith s.cpu.x (.mem (.abs w))) := rfl

theorem exec_cpyImm (v : Byte) (s : State) :
    exec (.cpyImm v) s = .next (s.compareWith s.cpu.y (.imm v)) := rfl

theorem exec_cpyZp (b : Byte) (s : State) :
    exec (.cpyZp b) s = .next (s.compareWith s.cpu.y (.mem (.zp b))) := rfl

theorem exec_cpyAbs (w : Word) (s : State) :
    exec (.cpyAbs w) s = .next (s.compareWith s.cpu.y (.mem (.abs w))) := rfl

theorem exec_incZp (b : Byte) (s : State) :
    exec (.incZp b) s = .next (s.rmw inc (.mem (.zp b))) := rfl

theorem exec_incZpx (b : Byte) (s : State) :
    exec (.incZpx b) s = .next (s.rmw inc (.mem (.zpx b))) := rfl

theorem exec_incAbs (w : Word) (s : State) :
    exec (.incAbs w) s = .next (s.rmw inc (.mem (.abs w))) := rfl

theorem exec_incAbsx (w : Word) (s : State) :
    exec (.incAbsx w) s = .next (s.rmw inc (.mem (.absx w))) := rfl

theorem exec_decZp (b : Byte) (s : State) :
    exec (.decZp b) s = .next (s.rmw dec (.mem (.zp b))) := rfl

theorem exec_decZpx (b : Byte) (s : State) :
    exec (.decZpx b) s = .next (s.rmw dec (.mem (.zpx b))) := rfl

theorem exec_decAbs (w : Word) (s : State) :
    exec (.decAbs w) s = .next (s.rmw dec (.mem (.abs w))) := rfl

theorem exec_decAbsx (w : Word) (s : State) :
    exec (.decAbsx w) s = .next (s.rmw dec (.mem (.absx w))) := rfl

theorem exec_inx (s : State) :
    exec .inx s = .next ((s.setX (s.cpu.x + 1)).setZN (s.cpu.x + 1)) := rfl

theorem exec_iny (s : State) :
    exec .iny s = .next ((s.setY (s.cpu.y + 1)).setZN (s.cpu.y + 1)) := rfl

theorem exec_dex (s : State) :
    exec .dex s = .next ((s.setX (s.cpu.x - 1)).setZN (s.cpu.x - 1)) := rfl

theorem exec_dey (s : State) :
    exec .dey s = .next ((s.setY (s.cpu.y - 1)).setZN (s.cpu.y - 1)) := rfl

theorem exec_aslAcc (s : State) : exec .aslAcc s = .next (s.rmw asl .acc) := rfl

theorem exec_aslZp (b : Byte) (s : State) :
    exec (.aslZp b) s = .next (s.rmw asl (.mem (.zp b))) := rfl

theorem exec_aslZpx (b : Byte) (s : State) :
    exec (.aslZpx b) s = .next (s.rmw asl (.mem (.zpx b))) := rfl

theorem exec_aslAbs (w : Word) (s : State) :
    exec (.aslAbs w) s = .next (s.rmw asl (.mem (.abs w))) := rfl

theorem exec_aslAbsx (w : Word) (s : State) :
    exec (.aslAbsx w) s = .next (s.rmw asl (.mem (.absx w))) := rfl

theorem exec_lsrAcc (s : State) : exec .lsrAcc s = .next (s.rmw lsr .acc) := rfl

theorem exec_lsrZp (b : Byte) (s : State) :
    exec (.lsrZp b) s = .next (s.rmw lsr (.mem (.zp b))) := rfl

theorem exec_lsrZpx (b : Byte) (s : State) :
    exec (.lsrZpx b) s = .next (s.rmw lsr (.mem (.zpx b))) := rfl

theorem exec_lsrAbs (w : Word) (s : State) :
    exec (.lsrAbs w) s = .next (s.rmw lsr (.mem (.abs w))) := rfl

theorem exec_lsrAbsx (w : Word) (s : State) :
    exec (.lsrAbsx w) s = .next (s.rmw lsr (.mem (.absx w))) := rfl

theorem exec_rolAcc (s : State) : exec .rolAcc s = .next (s.rmw rol .acc) := rfl

theorem exec_rolZp (b : Byte) (s : State) :
    exec (.rolZp b) s = .next (s.rmw rol (.mem (.zp b))) := rfl

theorem exec_rolZpx (b : Byte) (s : State) :
    exec (.rolZpx b) s = .next (s.rmw rol (.mem (.zpx b))) := rfl

theorem exec_rolAbs (w : Word) (s : State) :
    exec (.rolAbs w) s = .next (s.rmw rol (.mem (.abs w))) := rfl

theorem exec_rolAbsx (w : Word) (s : State) :
    exec (.rolAbsx w) s = .next (s.rmw rol (.mem (.absx w))) := rfl

theorem exec_rorAcc (s : State) : exec .rorAcc s = .next (s.rmw ror .acc) := rfl

theorem exec_rorZp (b : Byte) (s : State) :
    exec (.rorZp b) s = .next (s.rmw ror (.mem (.zp b))) := rfl

theorem exec_rorZpx (b : Byte) (s : State) :
    exec (.rorZpx b) s = .next (s.rmw ror (.mem (.zpx b))) := rfl

theorem exec_rorAbs (w : Word) (s : State) :
    exec (.rorAbs w) s = .next (s.rmw ror (.mem (.abs w))) := rfl

theorem exec_rorAbsx (w : Word) (s : State) :
    exec (.rorAbsx w) s = .next (s.rmw ror (.mem (.absx w))) := rfl

theorem exec_bcc (d : Byte) (s : State) : exec (.bcc d) s = .next (s.branch (!s.flag .c) d) := rfl

theorem exec_bcs (d : Byte) (s : State) : exec (.bcs d) s = .next (s.branch (s.flag .c) d) := rfl

theorem exec_beq (d : Byte) (s : State) : exec (.beq d) s = .next (s.branch (s.flag .z) d) := rfl

theorem exec_bmi (d : Byte) (s : State) : exec (.bmi d) s = .next (s.branch (s.flag .n) d) := rfl

theorem exec_bne (d : Byte) (s : State) : exec (.bne d) s = .next (s.branch (!s.flag .z) d) := rfl

theorem exec_bpl (d : Byte) (s : State) : exec (.bpl d) s = .next (s.branch (!s.flag .n) d) := rfl

theorem exec_bvc (d : Byte) (s : State) : exec (.bvc d) s = .next (s.branch (!s.flag .v) d) := rfl

theorem exec_bvs (d : Byte) (s : State) : exec (.bvs d) s = .next (s.branch (s.flag .v) d) := rfl

theorem exec_jmpAbs (w : Word) (s : State) : exec (.jmpAbs w) s = .next (s.setPc w) := rfl

theorem exec_jmpInd (w : Word) (s : State) :
    exec (.jmpInd w) s = .next ((s.afterIndirect w).setPc (s.indirectTarget w)) := rfl

theorem exec_jsrAbs (w : Word) (s : State) :
    exec (.jsrAbs w) s = .next ((s.push16 (s.cpu.pc - 1)).setPc w) := rfl

theorem exec_rts (s : State) : exec .rts s = .next (s.pull16.setPc (s.pulled16 + 1)) := rfl

theorem exec_pha (s : State) : exec .pha s = .next (s.push s.cpu.a) := rfl

theorem exec_php (s : State) : exec .php s = .next (s.push (pushedByProgram s.cpu.p)) := rfl

theorem exec_pla (s : State) : exec .pla s = .next ((s.pull.setA s.pulled).setZN s.pulled) := rfl

theorem exec_plp (s : State) : exec .plp s = .next (s.pull.setP s.pulled) := rfl

theorem exec_clc (s : State) : exec .clc s = .next (s.putFlag .c false) := rfl

theorem exec_cld (s : State) : exec .cld s = .next (s.putFlag .d false) := rfl

theorem exec_cli (s : State) : exec .cli s = .next (s.putFlag .i false) := rfl

theorem exec_clv (s : State) : exec .clv s = .next (s.putFlag .v false) := rfl

theorem exec_sec (s : State) : exec .sec s = .next (s.putFlag .c true) := rfl

theorem exec_sed (s : State) : exec .sed s = .next (s.putFlag .d true) := rfl

theorem exec_sei (s : State) : exec .sei s = .next (s.putFlag .i true) := rfl

theorem exec_brk (s : State) :
    exec .brk s =
      .next (s.interruptEntry (s.cpu.pc - 1 + brkOffset s.params) (pushedByProgram s.cpu.p) brkVector) := rfl

theorem exec_rti (s : State) : exec .rti s = .next s.interruptReturn := rfl

theorem exec_nop (s : State) : exec .nop s = .next s := rfl

/-! ### One inversion lemma for all instructions -/

/-- `t` is reached from `s` by bus reads, by bus writes at the listed addresses, in order, and by
changes of the CPU's registers. -/
inductive Accesses (s : State) : List Word → State → Prop where
  | none : Accesses s [] s
  | cpu {l : List Word} {t : State} (c : Cpu) : Accesses s l t → Accesses s l { t with cpu := c }
  | read {l : List Word} {t : State} (a : Word) : Accesses s l t → Accesses s l (t.touch a)
  | write {l : List Word} {t : State} (a : Word) (v : Byte) :
      Accesses s l t → Accesses s (l ++ [a]) (t.memWrite a v)

theorem Accesses.setA {s t : State} {l : List Word} (h : Accesses s l t) (v : Byte) :
    Accesses s l (t.setA v) := .cpu _ h

theorem Accesses.setX {s t : State} {l : List Word} (h : Accesses s l t) (v : Byte) :
    Accesses s l (t.setX v) := .cpu _ h

theorem Accesses.setY {s t : State} {l : List Word} (h : Accesses s l t) (v : Byte) :
    Accesses s l (t.setY v) := .cpu _ h

theorem Accesses.setS {s t : State} {l : List Word} (h : Accesses s l t) (v : Byte) :
    Accesses s l (t.setS v) := .cpu _ h

theorem Accesses.setPc {s t : State} {l : List Word} (h : Accesses s l t) (w : Word) :
    Accesses s l (t.setPc w) := .cpu _ h

theorem Accesses.setP {s t : State} {l : List Word} (h : Accesses s l t) (v : Byte) :
    Accesses s l (t.setP v) := .cpu _ h

theorem Accesses.setZN {s t : State} {l : List Word} (h : Accesses s l t) (v : Byte) :
    Accesses s l (t.setZN v) := h.setP _

theorem Accesses.putFlag {s t : State} {l : List Word} (h : Accesses s l t) (f : Flag) (b : Bool) :
    Accesses s l (t.putFlag f b) := h.setP _

theorem Accesses.push {s t : State} {l : List Word} (h : Accesses s l t) (v : Byte) :
    Accesses s (l ++ [stackAddr t.cpu.s]) (t.push v) := (h.write _ v).setS _

theorem State.push_s (s : State) (v : Byte) : (s.push v).cpu.s = s.cpu.s - 1 := by
  simp only [State.push, State.setS, State.memWrite_cpu]

theorem Accesses.push16 (s : State) (w : Word) :
    Accesses s [stackAddr s.cpu.s, stackAddr (s.cpu.s - 1)] (s.push16 w) := by
  have h := (Accesses.none.push (s := s) (hiByte w)).push (loByte w)
  rw [State.push_s] at h
  exact h

theorem Accesses.pull16 (s : State) : Accesses s [] s.pull16 := (Accesses.none.setS _).setS _

theorem Accesses.operand (s : State) (m : Source) : Accesses s [] (s.afterOperand m) := by
  cases m
  · exact .none
  · exact .read _ .none

theorem Accesses.loadA (s : State) (m : Source) : Accesses s [] (s.loadA m) :=
  ((Accesses.operand s m).setA _).setZN _

theorem Accesses.loadX (s : State) (m : Source) : Accesses s [] (s.loadX m) :=
  ((Accesses.operand s m).setX _).setZN _

theorem Accesses.loadY (s : State) (m : Source) : Accesses s [] (s.loadY m) :=
  ((Accesses.operand s m).setY _).setZN _

theorem Accesses.store (s : State) (f : MemForm) (v : Byte) :
    Accesses s [s.ea f] (s.store f v) := Accesses.none.write _ _

theorem Accesses.addA (s : State) (m : Source) : Accesses s [] (s.addA m) :=
  ((Accesses.operand s m).setA _).setP _

theorem Accesses.subA (s : State) (m : Source) : Accesses s [] (s.subA m) :=
  ((Accesses.operand s m).setA _).setP _

theorem Accesses.logicA (s : State) (op : Byte → Byte → Byte) (m : Source) :
    Accesses s [] (s.logicA op m) := ((Accesses.operand s m).setA _).setZN _

theorem Accesses.testA (s : State) (f : MemForm) : Accesses s [] (s.testA f) :=
  (Accesses.operand s (.mem f)).setP _

theorem Accesses.compareWith (s : State) (l : Byte) (m : Source) :
    Accesses s [] (s.compareWith l m) := (Accesses.operand s m).setP _

theorem Accesses.rmw_acc (s : State) (g : Byte → Byte → Byte × Byte) :
    Accesses s [] (s.rmw g .acc) := ((Accesses.none.setP _).setA _).setZN _

theorem Accesses.rmw_mem (s : State) (g : Byte → Byte → Byte × Byte) (f : MemForm) :
    Accesses s [s.ea f] (s.rmw g (.mem f)) :=
  (((Accesses.none.read _).setP _).write _ _).setZN _

theorem Accesses.branch (s : State) (c : Bool) (d : Byte) : Accesses s [] (s.branch c d) := by
  cases c
  · exact .none
  · exact Accesses.none.setPc _

theorem Accesses.indirect (s : State) (w v : Word) :
    Accesses s [] ((s.afterIndirect w).setPc v) := ((Accesses.none.read _).read _).setPc _

theorem Accesses.interruptEntry (s : State) (ret : Word) (p : Byte) (vec : Word) :
    Accesses s [stackAddr s.cpu.s, stackAddr (s.cpu.s - 1), stackAddr (s.cpu.s - 2)]
      (s.interruptEntry ret p vec) := by
  have h := ((((Accesses.push16 s ret).push p).putFlag .i true).setPc
    (((((s.push16 ret).push p).putFlag .i true)).peek16 vec))
  have e : (s.push16 ret).cpu.s = s.cpu.s - 2 := by
    rw [State.push16, State.push_s, State.push_s]
    bv_omega
  rw [e] at h
  exact h

theorem Accesses.interruptReturn (s : State) : Accesses s [] s.interruptReturn := by
  have h := (((Accesses.none (s := s)).setS (s.cpu.s + 1)).setP s.pulled)
  exact ((h.setS _).setS _).setPc _

theorem next_inj {r : Result} {a t : State} (e : r = .next a) (h : r = .next t) : a = t := by
  rw [e] at h
  exact Host.Outcome.next.inj h

/-- What an instruction can do to anything but the CPU's registers. -/
theorem exec_accesses {i : Instr} {s t : State} (h : exec i s = .next t) :
    Accesses s (s.stores i) t := by
  cases i with
  | ldaImm v =>
    obtain rfl := next_inj (exec_ldaImm v s) h
    exact Accesses.loadA s _
  | ldaZp b =>
    obtain rfl := next_inj (exec_ldaZp b s) h
    exact Accesses.loadA s _
  | ldaZpx b =>
    obtain rfl := next_inj (exec_ldaZpx b s) h
    exact Accesses.loadA s _
  | ldaAbs w =>
    obtain rfl := next_inj (exec_ldaAbs w s) h
    exact Accesses.loadA s _
  | ldaAbsx w =>
    obtain rfl := next_inj (exec_ldaAbsx w s) h
    exact Accesses.loadA s _
  | ldaAbsy w =>
    obtain rfl := next_inj (exec_ldaAbsy w s) h
    exact Accesses.loadA s _
  | ldaIndx b =>
    obtain rfl := next_inj (exec_ldaIndx b s) h
    exact Accesses.loadA s _
  | ldaIndy b =>
    obtain rfl := next_inj (exec_ldaIndy b s) h
    exact Accesses.loadA s _
  | ldxImm v =>
    obtain rfl := next_inj (exec_ldxImm v s) h
    exact Accesses.loadX s _
  | ldxZp b =>
    obtain rfl := next_inj (exec_ldxZp b s) h
    exact Accesses.loadX s _
  | ldxZpy b =>
    obtain rfl := next_inj (exec_ldxZpy b s) h
    exact Accesses.loadX s _
  | ldxAbs w =>
    obtain rfl := next_inj (exec_ldxAbs w s) h
    exact Accesses.loadX s _
  | ldxAbsy w =>
    obtain rfl := next_inj (exec_ldxAbsy w s) h
    exact Accesses.loadX s _
  | ldyImm v =>
    obtain rfl := next_inj (exec_ldyImm v s) h
    exact Accesses.loadY s _
  | ldyZp b =>
    obtain rfl := next_inj (exec_ldyZp b s) h
    exact Accesses.loadY s _
  | ldyZpx b =>
    obtain rfl := next_inj (exec_ldyZpx b s) h
    exact Accesses.loadY s _
  | ldyAbs w =>
    obtain rfl := next_inj (exec_ldyAbs w s) h
    exact Accesses.loadY s _
  | ldyAbsx w =>
    obtain rfl := next_inj (exec_ldyAbsx w s) h
    exact Accesses.loadY s _
  | staZp b =>
    obtain rfl := next_inj (exec_staZp b s) h
    exact Accesses.store s _ _
  | staZpx b =>
    obtain rfl := next_inj (exec_staZpx b s) h
    exact Accesses.store s _ _
  | staAbs w =>
    obtain rfl := next_inj (exec_staAbs w s) h
    exact Accesses.store s _ _
  | staAbsx w =>
    obtain rfl := next_inj (exec_staAbsx w s) h
    exact Accesses.store s _ _
  | staAbsy w =>
    obtain rfl := next_inj (exec_staAbsy w s) h
    exact Accesses.store s _ _
  | staIndx b =>
    obtain rfl := next_inj (exec_staIndx b s) h
    exact Accesses.store s _ _
  | staIndy b =>
    obtain rfl := next_inj (exec_staIndy b s) h
    exact Accesses.store s _ _
  | stxZp b =>
    obtain rfl := next_inj (exec_stxZp b s) h
    exact Accesses.store s _ _
  | stxZpy b =>
    obtain rfl := next_inj (exec_stxZpy b s) h
    exact Accesses.store s _ _
  | stxAbs w =>
    obtain rfl := next_inj (exec_stxAbs w s) h
    exact Accesses.store s _ _
  | styZp b =>
    obtain rfl := next_inj (exec_styZp b s) h
    exact Accesses.store s _ _
  | styZpx b =>
    obtain rfl := next_inj (exec_styZpx b s) h
    exact Accesses.store s _ _
  | styAbs w =>
    obtain rfl := next_inj (exec_styAbs w s) h
    exact Accesses.store s _ _
  | tax =>
    obtain rfl := next_inj (exec_tax s) h
    exact (Accesses.none.setX _).setZN _
  | tay =>
    obtain rfl := next_inj (exec_tay s) h
    exact (Accesses.none.setY _).setZN _
  | txa =>
    obtain rfl := next_inj (exec_txa s) h
    exact (Accesses.none.setA _).setZN _
  | tya =>
    obtain rfl := next_inj (exec_tya s) h
    exact (Accesses.none.setA _).setZN _
  | tsx =>
    obtain rfl := next_inj (exec_tsx s) h
    exact (Accesses.none.setX _).setZN _
  | txs =>
    obtain rfl := next_inj (exec_txs s) h
    exact Accesses.none.setS _
  | adcImm v =>
    obtain rfl := next_inj (exec_adcImm v s) h
    exact Accesses.addA s _
  | adcZp b =>
    obtain rfl := next_inj (exec_adcZp b s) h
    exact Accesses.addA s _
  | adcZpx b =>
    obtain rfl := next_inj (exec_adcZpx b s) h
    exact Accesses.addA s _
  | adcAbs w =>
    obtain rfl := next_inj (exec_adcAbs w s) h
    exact Accesses.addA s _
  | adcAbsx w =>
    obtain rfl := next_inj (exec_adcAbsx w s) h
    exact Accesses.addA s _
  | adcAbsy w =>
    obtain rfl := next_inj (exec_adcAbsy w s) h
    exact Accesses.addA s _
  | adcIndx b =>
    obtain rfl := next_inj (exec_adcIndx b s) h
    exact Accesses.addA s _
  | adcIndy b =>
    obtain rfl := next_inj (exec_adcIndy b s) h
    exact Accesses.addA s _
  | sbcImm v =>
    obtain rfl := next_inj (exec_sbcImm v s) h
    exact Accesses.subA s _
  | sbcZp b =>
    obtain rfl := next_inj (exec_sbcZp b s) h
    exact Accesses.subA s _
  | sbcZpx b =>
    obtain rfl := next_inj (exec_sbcZpx b s) h
    exact Accesses.subA s _
  | sbcAbs w =>
    obtain rfl := next_inj (exec_sbcAbs w s) h
    exact Accesses.subA s _
  | sbcAbsx w =>
    obtain rfl := next_inj (exec_sbcAbsx w s) h
    exact Accesses.subA s _
  | sbcAbsy w =>
    obtain rfl := next_inj (exec_sbcAbsy w s) h
    exact Accesses.subA s _
  | sbcIndx b =>
    obtain rfl := next_inj (exec_sbcIndx b s) h
    exact Accesses.subA s _
  | sbcIndy b =>
    obtain rfl := next_inj (exec_sbcIndy b s) h
    exact Accesses.subA s _
  | andImm v =>
    obtain rfl := next_inj (exec_andImm v s) h
    exact Accesses.logicA s _ _
  | andZp b =>
    obtain rfl := next_inj (exec_andZp b s) h
    exact Accesses.logicA s _ _
  | andZpx b =>
    obtain rfl := next_inj (exec_andZpx b s) h
    exact Accesses.logicA s _ _
  | andAbs w =>
    obtain rfl := next_inj (exec_andAbs w s) h
    exact Accesses.logicA s _ _
  | andAbsx w =>
    obtain rfl := next_inj (exec_andAbsx w s) h
    exact Accesses.logicA s _ _
  | andAbsy w =>
    obtain rfl := next_inj (exec_andAbsy w s) h
    exact Accesses.logicA s _ _
  | andIndx b =>
    obtain rfl := next_inj (exec_andIndx b s) h
    exact Accesses.logicA s _ _
  | andIndy b =>
    obtain rfl := next_inj (exec_andIndy b s) h
    exact Accesses.logicA s _ _
  | oraImm v =>
    obtain rfl := next_inj (exec_oraImm v s) h
    exact Accesses.logicA s _ _
  | oraZp b =>
    obtain rfl := next_inj (exec_oraZp b s) h
    exact Accesses.logicA s _ _
  | oraZpx b =>
    obtain rfl := next_inj (exec_oraZpx b s) h
    exact Accesses.logicA s _ _
  | oraAbs w =>
    obtain rfl := next_inj (exec_oraAbs w s) h
    exact Accesses.logicA s _ _
  | oraAbsx w =>
    obtain rfl := next_inj (exec_oraAbsx w s) h
    exact Accesses.logicA s _ _
  | oraAbsy w =>
    obtain rfl := next_inj (exec_oraAbsy w s) h
    exact Accesses.logicA s _ _
  | oraIndx b =>
    obtain rfl := next_inj (exec_oraIndx b s) h
    exact Accesses.logicA s _ _
  | oraIndy b =>
    obtain rfl := next_inj (exec_oraIndy b s) h
    exact Accesses.logicA s _ _
  | eorImm v =>
    obtain rfl := next_inj (exec_eorImm v s) h
    exact Accesses.logicA s _ _
  | eorZp b =>
    obtain rfl := next_inj (exec_eorZp b s) h
    exact Accesses.logicA s _ _
  | eorZpx b =>
    obtain rfl := next_inj (exec_eorZpx b s) h
    exact Accesses.logicA s _ _
  | eorAbs w =>
    obtain rfl := next_inj (exec_eorAbs w s) h
    exact Accesses.logicA s _ _
  | eorAbsx w =>
    obtain rfl := next_inj (exec_eorAbsx w s) h
    exact Accesses.logicA s _ _
  | eorAbsy w =>
    obtain rfl := next_inj (exec_eorAbsy w s) h
    exact Accesses.logicA s _ _
  | eorIndx b =>
    obtain rfl := next_inj (exec_eorIndx b s) h
    exact Accesses.logicA s _ _
  | eorIndy b =>
    obtain rfl := next_inj (exec_eorIndy b s) h
    exact Accesses.logicA s _ _
  | bitZp b =>
    obtain rfl := next_inj (exec_bitZp b s) h
    exact Accesses.testA s _
  | bitAbs w =>
    obtain rfl := next_inj (exec_bitAbs w s) h
    exact Accesses.testA s _
  | cmpImm v =>
    obtain rfl := next_inj (exec_cmpImm v s) h
    exact Accesses.compareWith s _ _
  | cmpZp b =>
    obtain rfl := next_inj (exec_cmpZp b s) h
    exact Accesses.compareWith s _ _
  | cmpZpx b =>
    obtain rfl := next_inj (exec_cmpZpx b s) h
    exact Accesses.compareWith s _ _
  | cmpAbs w =>
    obtain rfl := next_inj (exec_cmpAbs w s) h
    exact Accesses.compareWith s _ _
  | cmpAbsx w =>
    obtain rfl := next_inj (exec_cmpAbsx w s) h
    exact Accesses.compareWith s _ _
  | cmpAbsy w =>
    obtain rfl := next_inj (exec_cmpAbsy w s) h
    exact Accesses.compareWith s _ _
  | cmpIndx b =>
    obtain rfl := next_inj (exec_cmpIndx b s) h
    exact Accesses.compareWith s _ _
  | cmpIndy b =>
    obtain rfl := next_inj (exec_cmpIndy b s) h
    exact Accesses.compareWith s _ _
  | cpxImm v =>
    obtain rfl := next_inj (exec_cpxImm v s) h
    exact Accesses.compareWith s _ _
  | cpxZp b =>
    obtain rfl := next_inj (exec_cpxZp b s) h
    exact Accesses.compareWith s _ _
  | cpxAbs w =>
    obtain rfl := next_inj (exec_cpxAbs w s) h
    exact Accesses.compareWith s _ _
  | cpyImm v =>
    obtain rfl := next_inj (exec_cpyImm v s) h
    exact Accesses.compareWith s _ _
  | cpyZp b =>
    obtain rfl := next_inj (exec_cpyZp b s) h
    exact Accesses.compareWith s _ _
  | cpyAbs w =>
    obtain rfl := next_inj (exec_cpyAbs w s) h
    exact Accesses.compareWith s _ _
  | incZp b =>
    obtain rfl := next_inj (exec_incZp b s) h
    exact Accesses.rmw_mem s _ _
  | incZpx b =>
    obtain rfl := next_inj (exec_incZpx b s) h
    exact Accesses.rmw_mem s _ _
  | incAbs w =>
    obtain rfl := next_inj (exec_incAbs w s) h
    exact Accesses.rmw_mem s _ _
  | incAbsx w =>
    obtain rfl := next_inj (exec_incAbsx w s) h
    exact Accesses.rmw_mem s _ _
  | decZp b =>
    obtain rfl := next_inj (exec_decZp b s) h
    exact Accesses.rmw_mem s _ _
  | decZpx b =>
    obtain rfl := next_inj (exec_decZpx b s) h
    exact Accesses.rmw_mem s _ _
  | decAbs w =>
    obtain rfl := next_inj (exec_decAbs w s) h
    exact Accesses.rmw_mem s _ _
  | decAbsx w =>
    obtain rfl := next_inj (exec_decAbsx w s) h
    exact Accesses.rmw_mem s _ _
  | inx =>
    obtain rfl := next_inj (exec_inx s) h
    exact (Accesses.none.setX _).setZN _
  | iny =>
    obtain rfl := next_inj (exec_iny s) h
    exact (Accesses.none.setY _).setZN _
  | dex =>
    obtain rfl := next_inj (exec_dex s) h
    exact (Accesses.none.setX _).setZN _
  | dey =>
    obtain rfl := next_inj (exec_dey s) h
    exact (Accesses.none.setY _).setZN _
  | aslAcc =>
    obtain rfl := next_inj (exec_aslAcc s) h
    exact Accesses.rmw_acc s _
  | aslZp b =>
    obtain rfl := next_inj (exec_aslZp b s) h
    exact Accesses.rmw_mem s _ _
  | aslZpx b =>
    obtain rfl := next_inj (exec_aslZpx b s) h
    exact Accesses.rmw_mem s _ _
  | aslAbs w =>
    obtain rfl := next_inj (exec_aslAbs w s) h
    exact Accesses.rmw_mem s _ _
  | aslAbsx w =>
    obtain rfl := next_inj (exec_aslAbsx w s) h
    exact Accesses.rmw_mem s _ _
  | lsrAcc =>
    obtain rfl := next_inj (exec_lsrAcc s) h
    exact Accesses.rmw_acc s _
  | lsrZp b =>
    obtain rfl := next_inj (exec_lsrZp b s) h
    exact Accesses.rmw_mem s _ _
  | lsrZpx b =>
    obtain rfl := next_inj (exec_lsrZpx b s) h
    exact Accesses.rmw_mem s _ _
  | lsrAbs w =>
    obtain rfl := next_inj (exec_lsrAbs w s) h
    exact Accesses.rmw_mem s _ _
  | lsrAbsx w =>
    obtain rfl := next_inj (exec_lsrAbsx w s) h
    exact Accesses.rmw_mem s _ _
  | rolAcc =>
    obtain rfl := next_inj (exec_rolAcc s) h
    exact Accesses.rmw_acc s _
  | rolZp b =>
    obtain rfl := next_inj (exec_rolZp b s) h
    exact Accesses.rmw_mem s _ _
  | rolZpx b =>
    obtain rfl := next_inj (exec_rolZpx b s) h
    exact Accesses.rmw_mem s _ _
  | rolAbs w =>
    obtain rfl := next_inj (exec_rolAbs w s) h
    exact Accesses.rmw_mem s _ _
  | rolAbsx w =>
    obtain rfl := next_inj (exec_rolAbsx w s) h
    exact Accesses.rmw_mem s _ _
  | rorAcc =>
    obtain rfl := next_inj (exec_rorAcc s) h
    exact Accesses.rmw_acc s _
  | rorZp b =>
    obtain rfl := next_inj (exec_rorZp b s) h
    exact Accesses.rmw_mem s _ _
  | rorZpx b =>
    obtain rfl := next_inj (exec_rorZpx b s) h
    exact Accesses.rmw_mem s _ _
  | rorAbs w =>
    obtain rfl := next_inj (exec_rorAbs w s) h
    exact Accesses.rmw_mem s _ _
  | rorAbsx w =>
    obtain rfl := next_inj (exec_rorAbsx w s) h
    exact Accesses.rmw_mem s _ _
  | bcc d =>
    obtain rfl := next_inj (exec_bcc d s) h
    exact Accesses.branch s _ _
  | bcs d =>
    obtain rfl := next_inj (exec_bcs d s) h
    exact Accesses.branch s _ _
  | beq d =>
    obtain rfl := next_inj (exec_beq d s) h
    exact Accesses.branch s _ _
  | bmi d =>
    obtain rfl := next_inj (exec_bmi d s) h
    exact Accesses.branch s _ _
  | bne d =>
    obtain rfl := next_inj (exec_bne d s) h
    exact Accesses.branch s _ _
  | bpl d =>
    obtain rfl := next_inj (exec_bpl d s) h
    exact Accesses.branch s _ _
  | bvc d =>
    obtain rfl := next_inj (exec_bvc d s) h
    exact Accesses.branch s _ _
  | bvs d =>
    obtain rfl := next_inj (exec_bvs d s) h
    exact Accesses.branch s _ _
  | jmpAbs w =>
    obtain rfl := next_inj (exec_jmpAbs w s) h
    exact Accesses.none.setPc _
  | jmpInd w =>
    obtain rfl := next_inj (exec_jmpInd w s) h
    exact Accesses.indirect s _ _
  | jsrAbs w =>
    obtain rfl := next_inj (exec_jsrAbs w s) h
    exact (Accesses.push16 s _).setPc _
  | rts =>
    obtain rfl := next_inj (exec_rts s) h
    exact (Accesses.pull16 s).setPc _
  | pha =>
    obtain rfl := next_inj (exec_pha s) h
    exact Accesses.none.push _
  | php =>
    obtain rfl := next_inj (exec_php s) h
    exact Accesses.none.push _
  | pla =>
    obtain rfl := next_inj (exec_pla s) h
    exact ((Accesses.none.setS _).setA _).setZN _
  | plp =>
    obtain rfl := next_inj (exec_plp s) h
    exact (Accesses.none.setS _).setP _
  | clc =>
    obtain rfl := next_inj (exec_clc s) h
    exact Accesses.none.putFlag _ _
  | cld =>
    obtain rfl := next_inj (exec_cld s) h
    exact Accesses.none.putFlag _ _
  | cli =>
    obtain rfl := next_inj (exec_cli s) h
    exact Accesses.none.putFlag _ _
  | clv =>
    obtain rfl := next_inj (exec_clv s) h
    exact Accesses.none.putFlag _ _
  | sec =>
    obtain rfl := next_inj (exec_sec s) h
    exact Accesses.none.putFlag _ _
  | sed =>
    obtain rfl := next_inj (exec_sed s) h
    exact Accesses.none.putFlag _ _
  | sei =>
    obtain rfl := next_inj (exec_sei s) h
    exact Accesses.none.putFlag _ _
  | brk =>
    obtain rfl := next_inj (exec_brk s) h
    exact Accesses.interruptEntry s _ _ _
  | rti =>
    obtain rfl := next_inj (exec_rti s) h
    exact Accesses.interruptReturn s
  | nop =>
    obtain rfl := next_inj (exec_nop s) h
    exact Accesses.none

end Sys2Proof.Machine
end

