-- ==== Sys2Proof/Laws/Flags.lean ====
section
/-! SUPPORT. The laws of bits and flags: reading a bit after it is set, and every flag computation as
the status byte written out bit by bit. -/

namespace Sys2Proof.Machine

theorem getLsbD_setBit {n : Nat} (v : BitVec n) (i : Nat) (b : Bool) (j : Nat) :
    (setBit v i b).getLsbD j = if j = i ∧ i < n then b else v.getLsbD j := by
  unfold setBit
  by_cases hj : j = i
  · subst hj
    by_cases hn : j < n
    · cases b <;> simp [hn]
    · have h : v.getLsbD j = false := BitVec.getLsbD_of_ge v j (not_lt.1 hn)
      cases b <;> simp [hn, BitVec.getLsbD_twoPow, h]
  · by_cases hn : j < n
    · cases b
      · simp [hj, BitVec.getLsbD_twoPow, Ne.symm hj]
        exact fun h => BitVec.lt_of_getLsbD h
      · simp [hj, hn]
    · have h : v.getLsbD j = false := BitVec.getLsbD_of_ge v j (not_lt.1 hn)
      cases b <;> simp [hj, Ne.symm hj, BitVec.getLsbD_twoPow, h]

theorem getFlag_setFlag (p : Byte) (f g : Flag) (b : Bool) :
    getFlag (setFlag p f b) g = if g = f then b else getFlag p g := by
  unfold getFlag setFlag
  rw [getLsbD_setBit]
  cases f <;> cases g <;> rfl

@[simp] theorem getFlag_setFlag_same (p : Byte) (f : Flag) (b : Bool) :
    getFlag (setFlag p f b) f = b := by simp [getFlag_setFlag]

/-- Two bytes with the same eight bits are equal. -/
theorem byte_ext {p q : Byte} (h : ∀ i < 8, p.getLsbD i = q.getLsbD i) : p = q :=
  BitVec.eq_of_getLsbD_eq (by simpa using h)

theorem getLsbD_packP (n v u b d i z c : Bool) (k : Nat) (hk : k < 8) :
    (packP n v u b d i z c).getLsbD k = [c, z, i, d, b, u, v, n].getD k false := by
  have : k = 0 ∨ k = 1 ∨ k = 2 ∨ k = 3 ∨ k = 4 ∨ k = 5 ∨ k = 6 ∨ k = 7 := by omega
  rcases this with rfl | rfl | rfl | rfl | rfl | rfl | rfl | rfl <;>
    (revert n v u b d i z c; decide)

/-- A byte is its eight bits. -/
theorem byte_eq_packP (p : Byte) :
    p = packP (p.getLsbD 7) (p.getLsbD 6) (p.getLsbD 5) (p.getLsbD 4) (p.getLsbD 3) (p.getLsbD 2)
      (p.getLsbD 1) (p.getLsbD 0) := by
  refine byte_ext fun i hi => ?_
  rw [getLsbD_packP _ _ _ _ _ _ _ _ _ hi]
  interval_cases i <;> rfl

/-- `P.F <- w`, written out. -/
theorem setFlag_eq (p : Byte) (f : Flag) (w : Bool) :
    setFlag p f w =
      match f with
      | .c => packP (p.getLsbD 7) (p.getLsbD 6) (p.getLsbD 5) (p.getLsbD 4) (p.getLsbD 3)
          (p.getLsbD 2) (p.getLsbD 1) w
      | .z => packP (p.getLsbD 7) (p.getLsbD 6) (p.getLsbD 5) (p.getLsbD 4) (p.getLsbD 3)
          (p.getLsbD 2) w (p.getLsbD 0)
      | .i => packP (p.getLsbD 7) (p.getLsbD 6) (p.getLsbD 5) (p.getLsbD 4) (p.getLsbD 3)
          w (p.getLsbD 1) (p.getLsbD 0)
      | .d => packP (p.getLsbD 7) (p.getLsbD 6) (p.getLsbD 5) (p.getLsbD 4) w
          (p.getLsbD 2) (p.getLsbD 1) (p.getLsbD 0)
      | .b => packP (p.getLsbD 7) (p.getLsbD 6) (p.getLsbD 5) w (p.getLsbD 3)
          (p.getLsbD 2) (p.getLsbD 1) (p.getLsbD 0)
      | .u => packP (p.getLsbD 7) (p.getLsbD 6) w (p.getLsbD 4) (p.getLsbD 3)
          (p.getLsbD 2) (p.getLsbD 1) (p.getLsbD 0)
      | .v => packP (p.getLsbD 7) w (p.getLsbD 5) (p.getLsbD 4) (p.getLsbD 3)
          (p.getLsbD 2) (p.getLsbD 1) (p.getLsbD 0)
      | .n => packP w (p.getLsbD 6) (p.getLsbD 5) (p.getLsbD 4) (p.getLsbD 3)
          (p.getLsbD 2) (p.getLsbD 1) (p.getLsbD 0) := by
  cases f <;>
  · refine byte_ext fun i hi => ?_
    simp only [setFlag, getLsbD_setBit, getLsbD_packP _ _ _ _ _ _ _ _ _ hi, Flag.bit]
    interval_cases i <;> rfl

/-- `SetZN(r)` leaves the six bits other than Z and N (10_state.md R28). -/
theorem setZN_eq (p r : Byte) : setZN p r = withZN p r := by
  refine byte_ext fun i hi => ?_
  simp only [setZN, setFlag, withZN, getLsbD_setBit, getLsbD_packP _ _ _ _ _ _ _ _ _ hi, Flag.bit]
  interval_cases i <;> rfl

/-- ADC-core, written out (42_arithmetic_logic.md R119). -/
theorem adc_eq (p a m : Byte) :
    adc p a m =
      (BitVec.ofNat 8 (a.toNat + m.toNat + (p.getLsbD 0).toNat),
       withCVZN p (decide (255 < a.toNat + m.toNat + (p.getLsbD 0).toNat))
        (((a ^^^ BitVec.ofNat 8 (a.toNat + m.toNat + (p.getLsbD 0).toNat)) &&&
          (m ^^^ BitVec.ofNat 8 (a.toNat + m.toNat + (p.getLsbD 0).toNat)) &&& 0x80) != 0)
        (BitVec.ofNat 8 (a.toNat + m.toNat + (p.getLsbD 0).toNat))) := by
  refine Prod.ext rfl (byte_ext fun i hi => ?_)
  simp only [adc, setZN, setFlag, withCVZN, getLsbD_setBit, getLsbD_packP _ _ _ _ _ _ _ _ _ hi,
    Flag.bit, getFlag]
  interval_cases i <;> rfl

/-- A compare, written out: V, I, D, B and U stay (42_arithmetic_logic.md R125). -/
theorem compare_eq (p l m : Byte) : compare p l m = withCZN p (decide (m.toNat ≤ l.toNat)) (l - m) := by
  have hz : (l == m) = decide (l - m = 0) := by
    rw [Bool.eq_iff_iff]
    simp [BitVec.sub_eq_iff_eq_add]
  refine byte_ext fun i hi => ?_
  simp only [compare, hz, setFlag, withCZN, getLsbD_setBit, getLsbD_packP _ _ _ _ _ _ _ _ _ hi,
    Flag.bit]
  interval_cases i <;> rfl

/-- BIT, written out (42_arithmetic_logic.md R124). -/
theorem bitTest_eq (p a m : Byte) :
    bitTest p a m =
      packP (m.getLsbD 7) (m.getLsbD 6) (p.getLsbD 5) (p.getLsbD 4) (p.getLsbD 3) (p.getLsbD 2)
        (decide (a &&& m = 0)) (p.getLsbD 0) := by
  refine byte_ext fun i hi => ?_
  simp only [bitTest, setFlag, getLsbD_setBit, getLsbD_packP _ _ _ _ _ _ _ _ _ hi, Flag.bit]
  interval_cases i <;> rfl

/-- C replaced, then Z and N of a value. -/
theorem setZN_setFlag_c (p r : Byte) (c : Bool) : setZN (setFlag p .c c) r = withCZN p c r := by
  refine byte_ext fun i hi => ?_
  simp only [setZN, setFlag, withCZN, getLsbD_setBit, getLsbD_packP _ _ _ _ _ _ _ _ _ hi, Flag.bit]
  interval_cases i <;> rfl

/-- The bits of P that a program never sees do not reach the copy PHP and BRK push. -/
theorem pushedByProgram_eq (p : Byte) :
    pushedByProgram p = packP (p.getLsbD 7) (p.getLsbD 6) true true (p.getLsbD 3) (p.getLsbD 2)
      (p.getLsbD 1) (p.getLsbD 0) := by
  revert p; decide +kernel

theorem pushedByNmi_eq (p : Byte) :
    pushedByNmi p = packP (p.getLsbD 7) (p.getLsbD 6) true false (p.getLsbD 3) (p.getLsbD 2)
      (p.getLsbD 1) (p.getLsbD 0) := by
  revert p; decide +kernel

theorem setI_eq (p : Byte) : setFlag p .i true = withI p := setFlag_eq p .i true

end Sys2Proof.Machine
end

