-- ==== Sys2Proof/Laws/Ppu.lean ====
section
/-! SUPPORT. What a dot of the PPU can change: its registers and memories are only read (20_memory.md
R69), the counters advance by one (60_exceptions.md R194), and the render state stays in range. -/

namespace Sys2Proof.Machine

/-! ### A dot leaves the registers and the memories -/

/-- Two PPUs with the same registers, latches and memories: they differ at most in the flags, the
counters and the render state. -/
structure Ppu.SameStore (u v : Ppu) : Prop where
  ctrl : v.ctrl = u.ctrl
  mask : v.mask = u.mask
  latch : v.latch = u.latch
  lastWrite : v.lastWrite = u.lastWrite
  oamAddr : v.oamAddr = u.oamAddr
  oam : v.oam = u.oam
  scrollX : v.scrollX = u.scrollX
  scrollY : v.scrollY = u.scrollY
  scrollLatch : v.scrollLatch = u.scrollLatch
  vaddr : v.vaddr = u.vaddr
  addrHi : v.addrHi = u.addrHi
  addrLatch : v.addrLatch = u.addrLatch
  readBuf : v.readBuf = u.readBuf
  ciram : v.ciram = u.ciram
  palBd : v.palBd = u.palBd
  pal : v.pal = u.pal

theorem Ppu.SameStore.rfl' (u : Ppu) : Ppu.SameStore u u := by constructor <;> rfl

theorem Ppu.SameStore.trans' {u v w : Ppu} (h : Ppu.SameStore u v) (g : Ppu.SameStore v w) :
    Ppu.SameStore u w := by
  exact ⟨g.ctrl.trans h.ctrl, g.mask.trans h.mask, g.latch.trans h.latch, g.lastWrite.trans h.lastWrite, g.oamAddr.trans h.oamAddr, g.oam.trans h.oam, g.scrollX.trans h.scrollX, g.scrollY.trans h.scrollY, g.scrollLatch.trans h.scrollLatch, g.vaddr.trans h.vaddr, g.addrHi.trans h.addrHi, g.addrLatch.trans h.addrLatch, g.readBuf.trans h.readBuf, g.ciram.trans h.ciram, g.palBd.trans h.palBd, g.pal.trans h.pal⟩

theorem Ppu.SameStore.foldl {f : Ppu → Nat → Ppu} (hf : ∀ u i, Ppu.SameStore u (f u i)) (l : List Nat)
    (u : Ppu) : Ppu.SameStore u (l.foldl f u) := by
  induction l generalizing u with
  | nil => exact .rfl' u
  | cons i l ih => exact (hf u i).trans' (ih (f u i))

theorem Ppu.bgComposite_same (u : Ppu) (s k : Nat) : Ppu.SameStore u (u.bgComposite s k) :=
  .foldl (fun _ _ => by constructor <;> rfl) _ _

theorem Ppu.bgFetchStep_same (c : Cart) (u : Ppu) (s d : Nat) :
    Ppu.SameStore u (u.bgFetchStep c s d) := by
  unfold Ppu.bgFetchStep
  split
  · constructor <;> rfl
  · constructor <;> rfl
  · constructor <;> rfl
  · refine Ppu.SameStore.trans' ?_ (Ppu.bgComposite_same _ _ _)
    constructor <;> rfl
  · exact .rfl' u

theorem Ppu.spriteEval_same (u : Ppu) (s : Nat) : Ppu.SameStore u (u.spriteEval s) := by
  have h (v : Ppu) (i : Nat) : Ppu.SameStore v (v.evalSprite s i) := by
    unfold Ppu.evalSprite
    split_ifs <;> constructor <;> rfl
  unfold Ppu.spriteEval
  split
  · refine Ppu.SameStore.trans' ?_ (.foldl h _ _)
    constructor <;> rfl
  · constructor <;> rfl

theorem Ppu.spritePixel_same (s i : Nat) (attr x0 hi lo : Byte) (u : Ppu) (k : Nat) :
    Ppu.SameStore u (u.spritePixel s i attr x0 hi lo k) := by
  unfold Ppu.spritePixel Ppu.plot
  split_ifs <;> constructor <;> (dsimp only; split_ifs <;> rfl)

theorem Ppu.drawSprite_same (c : Cart) (u : Ppu) (s i : Nat) :
    Ppu.SameStore u (u.drawSprite c s i) :=
  .foldl (fun v k => Ppu.spritePixel_same s i _ _ _ _ v k) _ _

theorem Ppu.spriteFetchStep_same (c : Cart) (u : Ppu) (s d : Nat) :
    Ppu.SameStore u (u.spriteFetchStep c s d) := by
  unfold Ppu.spriteFetchStep
  dsimp only
  split_ifs
  · exact .rfl' u
  · exact Ppu.drawSprite_same c u s _

theorem Ppu.action_same (c : Cart) (u : Ppu) : Ppu.SameStore u (u.action c) := by
  unfold Ppu.action Ppu.visible
  dsimp only
  split_ifs
  · exact Ppu.bgFetchStep_same ..
  · exact Ppu.spriteEval_same ..
  · exact Ppu.spriteFetchStep_same ..
  · exact .rfl' u
  · constructor <;> rfl
  · constructor <;> rfl
  · exact .rfl' u

theorem Ppu.advance_same (u : Ppu) : Ppu.SameStore u u.advance := by
  unfold Ppu.advance
  split_ifs <;> constructor <;> rfl

/-- A dot only reads the PPU's registers and memories (20_memory.md R69). -/
theorem Ppu.tick_same (c : Cart) (u : Ppu) : Ppu.SameStore u (u.tick c) :=
  (Ppu.action_same c u).trans' (Ppu.advance_same _)

theorem Ppu.stepN_same (c : Cart) (n : Nat) (u : Ppu) : Ppu.SameStore u (u.stepN c n) := by
  induction n generalizing u with
  | zero => exact .rfl' u
  | succ n ih => exact (Ppu.tick_same c u).trans' (ih _)

/-! ### A dot moves the position by one -/

/-- The framebuffer is in its canonical form. -/
abbrev Ppu.FbOk (fb : Cells Colour) : Prop := Cells.Canonical 0 fb ∧ Cells.Below (240 * 256) fb

/-- `v` is `u` with at most pixels drawn, pattern latches loaded and sprites selected or claimed. -/
structure Ppu.Drawn (u v : Ppu) : Prop where
  scanline : v.scanline = u.scanline
  dot : v.dot = u.dot
  vbl : v.vbl = u.vbl
  nmiGuard : v.nmiGuard = u.nmiGuard
  frame : v.frame = u.frame
  frameReady : v.frameReady = u.frameReady
  selCount : u.selCount ≤ 8 → v.selCount ≤ 8
  fb : Ppu.FbOk u.fb → Ppu.FbOk v.fb

theorem Ppu.Drawn.rfl' (u : Ppu) : Ppu.Drawn u u := ⟨rfl, rfl, rfl, rfl, rfl, rfl, id, id⟩

theorem Ppu.Drawn.trans' {u v w : Ppu} (h : Ppu.Drawn u v) (g : Ppu.Drawn v w) : Ppu.Drawn u w :=
  ⟨g.scanline.trans h.scanline, g.dot.trans h.dot, g.vbl.trans h.vbl, g.nmiGuard.trans h.nmiGuard,
    g.frame.trans h.frame, g.frameReady.trans h.frameReady, g.selCount ∘ h.selCount, g.fb ∘ h.fb⟩

theorem Ppu.Drawn.foldl {f : Ppu → Nat → Ppu} (l : List Nat) (hf : ∀ i ∈ l, ∀ u, Ppu.Drawn u (f u i))
    (u : Ppu) : Ppu.Drawn u (l.foldl f u) := by
  induction l generalizing u with
  | nil => exact .rfl' u
  | cons i l ih =>
    exact (hf i (by simp) u).trans' (ih (fun j hj => hf j (by simp [hj])) (f u i))

theorem Ppu.Drawn.plot {u v : Ppu} (h : Ppu.Drawn u v) {s x : Nat} (c : Colour) (hs : s ≤ 239)
    (hx : x ≤ 255) : Ppu.Drawn u (v.plot s x c) :=
  h.trans' ⟨rfl, rfl, rfl, rfl, rfl, rfl, id, fun h =>
    ⟨Cells.canonical_write _ _ h.1, Cells.below_write _ h.2 (by omega)⟩⟩

theorem Ppu.bgComposite_drawn (u : Ppu) (s k : Nat) (hs : s ≤ 239) (hk : k ≤ 31) :
    Ppu.Drawn u (u.bgComposite s k) := by
  refine .foldl _ (fun i hi v => ?_) u
  have hi : i < 8 := List.mem_range.1 hi
  unfold Ppu.bgPixel
  refine Ppu.Drawn.plot ?_ _ hs (by omega)
  exact ⟨rfl, rfl, rfl, rfl, rfl, rfl, id, id⟩

theorem Ppu.bgFetchStep_drawn (c : Cart) (u : Ppu) (s d : Nat) (hs : s ≤ 239) (hd : d ≤ 256) :
    Ppu.Drawn u (u.bgFetchStep c s d) := by
  unfold Ppu.bgFetchStep
  split
  · exact ⟨rfl, rfl, rfl, rfl, rfl, rfl, id, id⟩
  · exact ⟨rfl, rfl, rfl, rfl, rfl, rfl, id, id⟩
  · exact ⟨rfl, rfl, rfl, rfl, rfl, rfl, id, id⟩
  · refine Ppu.Drawn.trans' ?_ (Ppu.bgComposite_drawn _ _ _ hs (by omega))
    exact ⟨rfl, rfl, rfl, rfl, rfl, rfl, id, id⟩
  · exact .rfl' u

theorem Ppu.spriteEval_drawn (u : Ppu) (s : Nat) : Ppu.Drawn u (u.spriteEval s) := by
  have h0 : Ppu.Drawn u { u with selCount := 0, sprClaimed := 0 } :=
    ⟨rfl, rfl, rfl, rfl, rfl, rfl, fun _ => Nat.zero_le _, id⟩
  have h (v : Ppu) (i : Nat) : Ppu.Drawn v (v.evalSprite s i) := by
    unfold Ppu.evalSprite
    split_ifs with h1 h2
    · exact ⟨rfl, rfl, rfl, rfl, rfl, rfl, fun _ => h2, id⟩
    · exact ⟨rfl, rfl, rfl, rfl, rfl, rfl, id, id⟩
    · exact .rfl' v
  unfold Ppu.spriteEval
  dsimp only
  split
  · exact h0.trans' (.foldl _ (fun i _ v => h v i) _)
  · exact h0

theorem Ppu.spritePixel_drawn (s i : Nat) (attr x0 hi lo : Byte) (u : Ppu) (k : Nat) (hs : s ≤ 239) :
    Ppu.Drawn u (u.spritePixel s i attr x0 hi lo k) := by
  unfold Ppu.spritePixel
  dsimp only
  have hc : Ppu.Drawn u { u with
      sprClaimed := setBit u.sprClaimed (x0.toNat + k) true
      s0 := u.s0 || (i == 0 && u.bgOpaque.getLsbD (x0.toNat + k)) } :=
    ⟨rfl, rfl, rfl, rfl, rfl, rfl, id, id⟩
  generalize pixel hi lo (if attr.getLsbD 6 = true then k else 7 - k) = p
  by_cases hx : x0.toNat + k > 255 ∨ p = 0 ∨ u.sprClaimed.getLsbD (x0.toNat + k) = true
  · rw [if_pos hx]; exact .rfl' u
  · rw [if_neg hx]
    split
    · exact hc.plot _ hs (by omega)
    · exact hc

theorem Ppu.spriteFetchStep_drawn (c : Cart) (u : Ppu) (s d : Nat) (hs : s ≤ 239) :
    Ppu.Drawn u (u.spriteFetchStep c s d) := by
  unfold Ppu.spriteFetchStep Ppu.drawSprite
  dsimp only
  split
  · exact .rfl' u
  · exact .foldl _ (fun k _ v => Ppu.spritePixel_drawn _ _ _ _ _ _ v k hs) _

theorem Ppu.visible_drawn (c : Cart) (u : Ppu) (hs : u.scanline ≤ 239) :
    Ppu.Drawn u (u.visible c) := by
  unfold Ppu.visible
  dsimp only
  split_ifs with h1 h2 h3
  · exact Ppu.bgFetchStep_drawn c u _ _ hs h1.2
  · exact Ppu.spriteEval_drawn u _
  · exact Ppu.spriteFetchStep_drawn c u _ _ hs
  · exact .rfl' u

theorem Ppu.action_position (c : Cart) (u : Ppu) :
    (u.action c).scanline = u.scanline ∧ (u.action c).dot = u.dot := by
  unfold Ppu.action
  split_ifs with h1
  · exact ⟨(Ppu.visible_drawn c u h1).scanline, (Ppu.visible_drawn c u h1).dot⟩
  · exact ⟨rfl, rfl⟩
  · exact ⟨rfl, rfl⟩
  · exact ⟨rfl, rfl⟩

/-- The counters after a dot (60_exceptions.md R194). -/
theorem Ppu.tick_counters (c : Cart) (u : Ppu) :
    (u.tick c).dot = (if u.dot + 1 = 341 then 0 else u.dot + 1) ∧
    (u.tick c).scanline = if u.dot + 1 = 341 then (u.scanline + 1) % 262 else u.scanline := by
  obtain ⟨h1, h2⟩ := Ppu.action_position c u
  unfold Ppu.tick Ppu.advance
  rw [h1, h2]
  split_ifs <;> exact ⟨rfl, rfl⟩

theorem Ppu.tick_inRange (c : Cart) (u : Ppu) (hs : u.scanline < 262) (hd : u.dot < 341) :
    (u.tick c).scanline < 262 ∧ (u.tick c).dot < 341 := by
  obtain ⟨h1, h2⟩ := Ppu.tick_counters c u
  rw [h1, h2]
  split_ifs <;> omega

/-- A dot moves the position by one, modulo the 89342 dots of a frame. -/
theorem Ppu.tick_position (c : Cart) (u : Ppu) (hs : u.scanline < 262) (hd : u.dot < 341) :
    (u.tick c).position = (u.position + 1) % 89342 := by
  obtain ⟨h1, h2⟩ := Ppu.tick_counters c u
  unfold Ppu.position
  rw [h1, h2]
  split_ifs <;> omega

/-! ### A dot keeps the PPU's invariant -/

theorem Ppu.Inv.tick {c : Cart} {u : Ppu} (h : u.Inv) : (u.tick c).Inv := by
  have same := Ppu.tick_same c u
  obtain ⟨hs, hd⟩ := Ppu.tick_inRange c u h.scanline h.dot
  have hpos := Ppu.tick_position c u h.scanline h.dot
  have hfb : Ppu.FbOk (u.tick c).fb ∧ Ppu.FbOk (u.tick c).frame ∧ (u.tick c).selCount ≤ 8 ∧
      (u.tick c).nmiGuard = (u.action c).nmiGuard ∧ (u.tick c).vbl = (u.action c).vbl ∧
      (if u.scanline = 241 ∧ u.dot = 0 then (u.action c).nmiGuard = true
       else if u.scanline = 261 ∧ u.dot = 0 then
         (u.action c).nmiGuard = false ∧ (u.action c).vbl = false
       else (u.action c).nmiGuard = u.nmiGuard ∧ (u.action c).vbl = u.vbl) := by
    have adv (v : Ppu) : v.advance.fb = v.fb ∧ v.advance.frame = v.frame ∧
        v.advance.selCount = v.selCount ∧ v.advance.nmiGuard = v.nmiGuard ∧
        v.advance.vbl = v.vbl := by
      unfold Ppu.advance; split_ifs <;> exact ⟨rfl, rfl, rfl, rfl, rfl⟩
    obtain ⟨a1, a2, a3, a4, a5⟩ := adv (u.action c)
    unfold Ppu.tick
    rw [a1, a2, a3, a4, a5]
    unfold Ppu.action
    split_ifs with h1 h2 h3 h3 h4 <;> try omega
    · have d := Ppu.visible_drawn c u h1
      exact ⟨d.fb h.fb, d.frame ▸ h.frame, d.selCount h.selCount, rfl, rfl, d.nmiGuard, d.vbl⟩
    · exact ⟨h.fb, h.fb, Nat.zero_le _, rfl, rfl, rfl⟩
    · exact ⟨h.fb, h.frame, h.selCount, rfl, rfl, rfl, rfl⟩
    · exact ⟨h.fb, h.frame, h.selCount, rfl, rfl, rfl, rfl⟩
  obtain ⟨f1, f2, f3, f4, f5, f6⟩ := hfb
  have hpu : u.position = 341 * u.scanline + u.dot := rfl
  have hr := h.scanline
  have hr' := h.dot
  have hg := h.guard
  refine ⟨same.oam ▸ h.oam, same.ciram ▸ h.ciram, same.pal ▸ h.pal, same.pal ▸ h.palBackdrop, f1, f2,
    hs, hd, f3, same.scrollY ▸ h.scrollY, ?_, ?_, ?_, ?_⟩
  · rw [same.latch, same.ctrl]; exact h.ctrlLatch
  · rw [same.latch, same.mask]; exact h.maskLatch
  · rw [f4, hpos]
    split_ifs at f6 with h1 h2
    · simp only [f6, true_iff]; omega
    · simp only [f6.1, Bool.false_eq_true, false_iff]; omega
    · rw [f6.1, hg]; omega
  · rw [f4, f5]
    split_ifs at f6 with h1 h2
    · exact fun _ => f6
    · rw [f6.2]; exact fun h => absurd h (by simp)
    · rw [f6.1, f6.2]; exact h.vblGuard

theorem Ppu.Inv.stepN {c : Cart} (n : Nat) {u : Ppu} (h : u.Inv) : (u.stepN c n).Inv := by
  induction n generalizing u with
  | zero => exact h
  | succ n ih => exact ih h.tick

end Sys2Proof.Machine
end

