-- ==== Sys2Proof/Laws/Stack.lean ====
section
/-! SUPPORT. The stack and interrupt entry as plain record updates (10_state.md R18,
60_exceptions.md R172): the stack page is work RAM, so a push changes one cell and S, and a pull
changes S. -/

namespace Sys2Proof.Machine

theorem toNat_stackAddr (o : Byte) : (stackAddr o).toNat = 0x100 + o.toNat := by
  simp [stackAddr, BitVec.toNat_add]; omega

/-- The work-RAM cell of a stack address. -/
theorem stackAddr_mod (o : Byte) : (stackAddr o).toNat % 0x800 = 0x100 + o.toNat := by
  rw [toNat_stackAddr]; omega

theorem stackAddr_le (o : Byte) : (stackAddr o).toNat ≤ 0x1FFF := by rw [toNat_stackAddr]; omega

/-- `Push(v)` writes WRAM[$0100 + S] and takes 1 from S. -/
theorem State.push_eq (s : State) (v : Byte) :
    s.push v = { s with
      cpu := { s.cpu with s := s.cpu.s - 1 }
      wram := s.wram.write (0x100 + s.cpu.s.toNat) v } := by
  simp only [State.push, State.memWrite_wram _ _ _ (stackAddr_le _), stackAddr_mod]
  rfl

/-- A pull returns WRAM[$0100 + (S + 1)]. -/
theorem State.pulled_eq (s : State) : s.pulled = s.wram.read (0x100 + (s.cpu.s + 1).toNat) := by
  rw [State.pulled, State.peek_wram _ _ (stackAddr_le _), stackAddr_mod]

@[simp] theorem State.pull_wram (s : State) : s.pull.wram = s.wram := rfl
@[simp] theorem State.pull_cpu_s (s : State) : s.pull.cpu.s = s.cpu.s + 1 := rfl

/-- Two pulls: the low byte first. -/
theorem State.pulled16_eq (s : State) :
    s.pulled16 = ofHiLo (s.wram.read (0x100 + (s.cpu.s + 2).toNat))
      (s.wram.read (0x100 + (s.cpu.s + 1).toNat)) := by
  rw [State.pulled16, State.pulled_eq, State.pulled_eq, State.pull_wram, State.pull_cpu_s,
    BitVec.add_assoc]
  rfl

theorem State.pull16_eq (s : State) : s.pull16 = s.setS (s.cpu.s + 2) := by
  simp only [State.pull16, State.pull, State.setS_s, State.setS_setS, BitVec.add_assoc]
  rfl

/-- A 16-bit push: the high byte at S, the low byte below it. -/
theorem State.push16_eq (s : State) (w : Word) :
    s.push16 w = { s with
      cpu := { s.cpu with s := s.cpu.s - 2 }
      wram := (s.wram.write (0x100 + s.cpu.s.toNat) (hiByte w)).write
        (0x100 + (s.cpu.s - 1).toNat) (loByte w) } := by
  simp only [State.push16, State.push_eq, BitVec.sub_sub]
  rfl

theorem vector_rom (s : State) (v : Word) (h : 0x8000 ≤ v.toNat) (h' : v.toNat < 0xFFFF) :
    s.peek16 v = ofHiLo (s.cart.prgRead (v + 1)) (s.cart.prgRead v) := by
  have : 0x8000 ≤ (v + 1).toNat := by simp [BitVec.toNat_add]; omega
  rw [State.peek16, State.peek_rom _ _ h, State.peek_rom _ _ this]

/-- Interrupt entry as one record update: three stack cells, S, I and PC, and nothing else
(60_exceptions.md R172). -/
theorem State.interruptEntry_eq (s : State) (ret : Word) (pp : Byte) (vec : Word)
    (h : 0x8000 ≤ vec.toNat) (h' : vec.toNat < 0xFFFF) :
    s.interruptEntry ret pp vec = { s with
      cpu := { s.cpu with
        s := s.cpu.s - 3
        p := setFlag s.cpu.p .i true
        pc := ofHiLo (s.cart.prgRead (vec + 1)) (s.cart.prgRead vec) }
      wram := ((s.wram.write (0x100 + s.cpu.s.toNat) (hiByte ret)).write
        (0x100 + (s.cpu.s - 1).toNat) (loByte ret)).write (0x100 + (s.cpu.s - 2).toNat) pp } := by
  simp only [State.interruptEntry, vector_rom _ _ h h', State.push16_eq, State.push_eq,
    BitVec.sub_sub]
  rfl

end Sys2Proof.Machine
end

