-- ==== Sys2Proof/Laws/Inv.lean ====
section
/-! SUPPORT. The shared operations keep the invariant of the machine: a bus read, a bus write with OAM
DMA and the port writes, the stack, interrupt entry, and a batch of dots. -/

namespace Sys2Proof.Machine

/-! ### The PPU's ports -/

theorem Ppu.Inv.portTouch {u : Ppu} (h : u.Inv) (ps : Params) (c : Cart) (r : Port) :
    (u.portTouch ps c r).Inv := by
  unfold Ppu.portTouch
  split
  · split_ifs
    · exact ⟨h.oam, h.ciram, h.pal, h.palBackdrop, h.fb, h.frame, h.scanline, h.dot, h.selCount,
        h.scrollY, h.ctrlLatch, h.maskLatch, h.guard, fun h => absurd h (by simp)⟩
    · exact h
  · exact ⟨h.oam, h.ciram, h.pal, h.palBackdrop, h.fb, h.frame, h.scanline, h.dot, h.selCount,
      h.scrollY, h.ctrlLatch, h.maskLatch, h.guard, h.vblGuard⟩
  all_goals exact h

theorem Ppu.Inv.withOam {u : Ppu} (h : u.Inv) {m : Memory} (hm : Memory.wf 256 m) (a : Byte) :
    Ppu.Inv { u with oam := m, oamAddr := a } :=
  ⟨hm, h.ciram, h.pal, h.palBackdrop, h.fb, h.frame, h.scanline, h.dot, h.selCount,
    h.scrollY, h.ctrlLatch, h.maskLatch, h.guard, h.vblGuard⟩

theorem Cart.ntPhys_lt (c : Cart) (t : Nat) (ht : t < 4) : c.ntPhys t < 2 := by
  unfold Cart.ntPhys; split_ifs <;> omega

theorem ciramKey_lt (c : Cart) (a : Nat) : ciramKey c a < 2048 := by
  have := c.ntPhys_lt ((a - 0x2000) / 0x400 % 4) (by omega)
  unfold ciramKey; omega

theorem Ppu.Inv.palWrite {u : Ppu} (h : u.Inv) {q : Nat} (hq : q < 32) (v : Byte) :
    (u.palWrite q v).Inv := by
  unfold Ppu.palWrite
  split_ifs with h0
  · exact ⟨h.oam, h.ciram, h.pal, h.palBackdrop, h.fb, h.frame, h.scanline, h.dot, h.selCount,
      h.scrollY, h.ctrlLatch, h.maskLatch, h.guard, h.vblGuard⟩
  · refine ⟨h.oam, h.ciram, Memory.wf_write v h.pal hq, ?_, h.fb, h.frame, h.scanline, h.dot,
      h.selCount, h.scrollY, h.ctrlLatch, h.maskLatch, h.guard, h.vblGuard⟩
    intro c hc
    rcases Cells.mem_write hc with rfl | hc
    · exact h0
    · exact h.palBackdrop c hc

theorem Ppu.Inv.writeOwn {u : Ppu} (h : u.Inv) (c : Cart) (a : Nat) (v : Byte) :
    (u.writeOwn c a v).Inv := by
  unfold Ppu.writeOwn
  dsimp only
  split_ifs
  · exact h
  · exact ⟨h.oam, Memory.wf_write v h.ciram (ciramKey_lt c _), h.pal, h.palBackdrop, h.fb, h.frame,
      h.scanline, h.dot, h.selCount, h.scrollY, h.ctrlLatch, h.maskLatch, h.guard, h.vblGuard⟩
  · exact h.palWrite (Nat.mod_lt _ (by omega)) v

theorem Ppu.Inv.portWrite {u : Ppu} (h : u.Inv) (c : Cart) (r : Port) (v : Byte) :
    (u.portWrite c r v).Inv := by
  have h0 : Ppu.Inv { u with lastWrite := v } :=
    ⟨h.oam, h.ciram, h.pal, h.palBackdrop, h.fb, h.frame, h.scanline, h.dot, h.selCount,
      h.scrollY, h.ctrlLatch, h.maskLatch, h.guard, h.vblGuard⟩
  unfold Ppu.portWrite
  dsimp only
  cases r with
  | ctrl => exact ⟨h.oam, h.ciram, h.pal, h.palBackdrop, h.fb, h.frame, h.scanline, h.dot, h.selCount,
      h.scrollY, rfl, h.maskLatch, h.guard, h.vblGuard⟩
  | mask => exact ⟨h.oam, h.ciram, h.pal, h.palBackdrop, h.fb, h.frame, h.scanline, h.dot, h.selCount,
      h.scrollY, h.ctrlLatch, rfl, h.guard, h.vblGuard⟩
  | status => exact h0
  | oamAddr => exact ⟨h.oam, h.ciram, h.pal, h.palBackdrop, h.fb, h.frame, h.scanline, h.dot,
      h.selCount, h.scrollY, h.ctrlLatch, h.maskLatch, h.guard, h.vblGuard⟩
  | oamData => exact h0.withOam (Memory.wf_write v h.oam u.oamAddr.isLt) _
  | scroll =>
    unfold Ppu.scrollWrite
    split_ifs
    · refine ⟨h.oam, h.ciram, h.pal, h.palBackdrop, h.fb, h.frame, h.scanline, h.dot, h.selCount, ?_,
        h.ctrlLatch, h.maskLatch, h.guard, h.vblGuard⟩
      simp only [BitVec.toNat_ofNat]; omega
    · exact ⟨h.oam, h.ciram, h.pal, h.palBackdrop, h.fb, h.frame, h.scanline, h.dot, h.selCount,
        h.scrollY, h.ctrlLatch, h.maskLatch, h.guard, h.vblGuard⟩
  | addr =>
    unfold Ppu.addrWrite
    split_ifs <;> exact ⟨h.oam, h.ciram, h.pal, h.palBackdrop, h.fb, h.frame, h.scanline, h.dot,
        h.selCount, h.scrollY, h.ctrlLatch, h.maskLatch, h.guard, h.vblGuard⟩
  | data =>
    have h1 := h0.writeOwn c u.vaddr.toNat v
    exact ⟨h1.oam, h1.ciram, h1.pal, h1.palBackdrop, h1.fb, h1.frame, h1.scanline, h1.dot, h1.selCount,
      h1.scrollY, h1.ctrlLatch, h1.maskLatch, h1.guard, h1.vblGuard⟩

/-! ### The cartridge -/

theorem Cart.Inv.withSram {c : Cart} (h : c.Inv) {m : Memory} (hm : Memory.wf 8192 m) :
    Cart.Inv { c with sram := m } :=
  ⟨h.image, hm, h.chrRam, h.chrRom, ⟨h.header.long, h.header.prgBanks, h.header.chrBanks,
    h.header.mirror, h.header.battery, h.header.trainer, h.header.mapper⟩⟩

theorem Cart.Inv.sramWrite {c : Cart} (h : c.Inv) {i : Nat} (hi : i < 8192) (v : Byte) :
    (c.sramWrite i v).Inv := by
  unfold Cart.sramWrite
  split_ifs
  · exact h.withSram (Memory.wf_write v h.sram hi)
  · exact h

theorem Cart.Inv.chrWrite {c : Cart} (h : c.Inv) {a : Nat} (ha : a < 8192) (v : Byte) :
    (c.chrWrite a v).Inv := by
  unfold Cart.chrWrite
  split_ifs with h0
  · exact ⟨h.image, h.sram, Memory.wf_write v h.chrRam ha, fun hn => absurd h0.2 hn,
      ⟨h.header.long, h.header.prgBanks, h.header.chrBanks,
        h.header.mirror, h.header.battery, h.header.trainer, h.header.mapper⟩⟩
  · exact h

theorem Cart.Inv.portWriteCart {c : Cart} (h : c.Inv) (u : Ppu) (r : Port) (v : Byte) :
    (u.portWriteCart c r v).Inv := by
  unfold Ppu.portWriteCart Ppu.writeCart
  cases r <;> dsimp only <;> try exact h
  split_ifs with h0
  · exact h.chrWrite (by omega) v
  · exact h

/-! ### The machine -/

theorem Ctrl.touch_index {c : Ctrl} (h : c.index ≤ 8) : c.touch.index ≤ 8 := by
  unfold Ctrl.touch
  split_ifs
  · exact h
  · simp only; omega
  · exact h

/-- The invariant does not look at the registers or at the pending NMI. -/
theorem State.Inv.withCpu {s : State} (h : s.Inv) (c : Cpu) : State.Inv { s with cpu := c } :=
  ⟨h.wram, h.ctrlIndex, h.cart, h.ppu, h.stop⟩

theorem State.Inv.touch {s : State} (h : s.Inv) (a : Word) : (s.touch a).Inv := by
  unfold State.touch
  split_ifs
  · exact h
  · exact ⟨h.wram, h.ctrlIndex, h.cart, h.ppu.portTouch _ _ _, h.stop⟩
  · exact ⟨h.wram, Ctrl.touch_index h.ctrlIndex, h.cart, h.ppu, h.stop⟩
  · exact h

theorem State.Inv.oamDma {s : State} (h : s.Inv) (v : Byte) : (s.oamDma v).Inv := by
  suffices g : ∀ n (s : State), s.Inv → (State.dmaFrom v n s).Inv from g 256 s h
  intro n
  induction n with
  | zero => exact fun s h => h
  | succ n ih =>
    intro s h
    have ht := h.touch (ofHiLo v (BitVec.ofNat 8 (255 - n)))
    exact ih _ ⟨ht.wram, ht.ctrlIndex, ht.cart,
      ht.ppu.withOam (Memory.wf_write _ ht.ppu.oam (Nat.mod_lt _ (by omega))) _, ht.stop⟩

/-- A bus write keeps the invariant, whatever it reaches. -/
theorem State.Inv.memWrite {s : State} (h : s.Inv) (a : Word) (v : Byte) : (s.memWrite a v).Inv := by
  unfold State.memWrite State.portWrite
  split_ifs
  · exact ⟨Memory.wf_write v h.wram (Nat.mod_lt _ (by omega)), h.ctrlIndex, h.cart, h.ppu, h.stop⟩
  · exact ⟨h.wram, h.ctrlIndex, h.cart.portWriteCart _ _ _, h.ppu.portWrite _ _ _, h.stop⟩
  · exact h.oamDma v
  · refine ⟨h.wram, ?_, h.cart, h.ppu, h.stop⟩
    unfold Ctrl.write
    dsimp only
    split_ifs
    · exact Nat.zero_le _
    · exact h.ctrlIndex
  · exact h
  · exact ⟨h.wram, h.ctrlIndex, h.cart.sramWrite (by omega) v, h.ppu, h.stop⟩
  · exact h

theorem State.Inv.push {s : State} (h : s.Inv) (v : Byte) : (s.push v).Inv :=
  (h.memWrite _ v).withCpu _

theorem State.Inv.push16 {s : State} (h : s.Inv) (w : Word) : (s.push16 w).Inv := (h.push _).push _

theorem State.Inv.interruptEntry {s : State} (h : s.Inv) (ret : Word) (pp : Byte) (vec : Word) :
    (s.interruptEntry ret pp vec).Inv :=
  (((h.push16 ret).push pp).withCpu _).withCpu _

theorem State.Inv.ppuBatch {s : State} (h : s.Inv) (n : Nat) : (s.ppuBatch n).Inv :=
  ⟨h.wram, h.ctrlIndex, h.cart, h.ppu.stepN n, h.stop⟩

theorem State.Inv.nmiEntry {s : State} (h : s.Inv) : s.nmiEntry.Inv := h.interruptEntry _ _ _

theorem State.Inv.nmiCheck {s : State} (h : s.Inv) : s.nmiCheck.Inv := by
  have h0 : State.Inv { s with nmiPending := false } := ⟨h.wram, h.ctrlIndex, h.cart, h.ppu, h.stop⟩
  unfold State.nmiCheck
  split_ifs
  · exact h0.nmiEntry.ppuBatch (3 * nmiCycles)
  · exact h

theorem State.Inv.halt {s : State} (h : s.Inv) (c : HaltCause) : (s.halt c).Inv :=
  ⟨h.wram, h.ctrlIndex, h.cart, h.ppu, by simp [State.halt]⟩

/-! ### Insertion -/

theorem insertCartridge_inv (im : Option Image) (him : ∀ i ∈ im, Memory.wf i.length i.bytes)
    {sram chr : Memory} (hs : Memory.wf 8192 sram) (hc : Memory.wf 8192 chr) :
    (insertCartridge im sram chr).Inv := by
  unfold insertCartridge
  cases im with
  | none =>
    exact ⟨Memory.wf_nil _, hs, hc, fun h => absurd rfl h,
      ⟨by simp [Cart.absent], rfl, rfl, rfl, rfl, rfl, rfl⟩⟩
  | some i =>
    dsimp only
    split_ifs with h1 h2
    · exact ⟨Memory.wf_nil _, hs, hc, fun h => absurd rfl h,
        ⟨by simp [Cart.absent], rfl, rfl, rfl, rfl, rfl, rfl⟩⟩
    · exact ⟨him i rfl, hs, hc, fun h => absurd h2 h,
        ⟨fun _ => not_lt.1 h1, rfl, rfl, rfl, rfl, rfl, rfl⟩⟩
    · exact ⟨him i rfl, hs, Memory.wf_nil _, fun _ => rfl,
        ⟨fun _ => not_lt.1 h1, rfl, rfl, rfl, rfl, rfl, rfl⟩⟩

end Sys2Proof.Machine
end

