-- ==== Sys2Proof/Laws/Ops.lean ====
section
/-! SUPPORT. Each shared operation of the meanings as one record update, with P written out: what it
changes, and that it changes nothing else. -/

namespace Sys2Proof.Machine

@[simp] theorem State.afterOperand_cpu (s : State) (m : Source) : (s.afterOperand m).cpu = s.cpu := by
  cases m
  · rfl
  · exact State.touch_cpu _ _

theorem State.afterIndirect_eq (s : State) (w : Word) :
    s.afterIndirect w = (s.touch w).touch (jmpHighAddr s.params w) := rfl

@[simp] theorem State.afterIndirect_cpu (s : State) (w : Word) : (s.afterIndirect w).cpu = s.cpu := by
  rw [State.afterIndirect_eq, State.touch_cpu, State.touch_cpu]

theorem State.loadA_eq (s : State) (m : Source) :
    s.loadA m = { s.afterOperand m with
      cpu := { s.cpu with a := s.operand m, p := withZN s.cpu.p (s.operand m) } } := by
  simp only [State.loadA, State.setZN, State.setA, State.setP, setZN_eq, State.afterOperand_cpu]

theorem State.loadX_eq (s : State) (m : Source) :
    s.loadX m = { s.afterOperand m with
      cpu := { s.cpu with x := s.operand m, p := withZN s.cpu.p (s.operand m) } } := by
  simp only [State.loadX, State.setZN, State.setX, State.setP, setZN_eq, State.afterOperand_cpu]

theorem State.loadY_eq (s : State) (m : Source) :
    s.loadY m = { s.afterOperand m with
      cpu := { s.cpu with y := s.operand m, p := withZN s.cpu.p (s.operand m) } } := by
  simp only [State.loadY, State.setZN, State.setY, State.setP, setZN_eq, State.afterOperand_cpu]

/-- A register written with Z and N of its new value. -/
theorem State.setA_setZN (s : State) (v : Byte) :
    (s.setA v).setZN v = { s with cpu := { s.cpu with a := v, p := withZN s.cpu.p v } } := by
  simp only [State.setZN, State.setA, State.setP, setZN_eq]

theorem State.setX_setZN (s : State) (v : Byte) :
    (s.setX v).setZN v = { s with cpu := { s.cpu with x := v, p := withZN s.cpu.p v } } := by
  simp only [State.setZN, State.setX, State.setP, setZN_eq]

theorem State.setY_setZN (s : State) (v : Byte) :
    (s.setY v).setZN v = { s with cpu := { s.cpu with y := v, p := withZN s.cpu.p v } } := by
  simp only [State.setZN, State.setY, State.setP, setZN_eq]

theorem State.addA_eq (s : State) (m : Source) :
    s.addA m = { s.afterOperand m with
      cpu := { s.cpu with
        a := (adc s.cpu.p s.cpu.a (s.operand m)).1
        p := (adc s.cpu.p s.cpu.a (s.operand m)).2 } } := by
  simp only [State.addA, State.setA, State.setP, State.afterOperand_cpu]

theorem State.subA_eq (s : State) (m : Source) :
    s.subA m = { s.afterOperand m with
      cpu := { s.cpu with
        a := (adc s.cpu.p s.cpu.a (s.operand m ^^^ 0xFF)).1
        p := (adc s.cpu.p s.cpu.a (s.operand m ^^^ 0xFF)).2 } } := by
  simp only [State.subA, sbc, State.setA, State.setP, State.afterOperand_cpu]

theorem State.logicA_eq (s : State) (op : Byte → Byte → Byte) (m : Source) :
    s.logicA op m = { s.afterOperand m with
      cpu := { s.cpu with
        a := op s.cpu.a (s.operand m)
        p := withZN s.cpu.p (op s.cpu.a (s.operand m)) } } := by
  simp only [State.logicA, State.setZN, State.setA, State.setP, setZN_eq, State.afterOperand_cpu]

theorem State.testA_eq (s : State) (f : MemForm) :
    s.testA f = { s.touch (s.ea f) with
      cpu := { s.cpu with p := bitTest s.cpu.p s.cpu.a (s.peek (s.ea f)) } } := by
  simp only [State.testA, State.setP, State.afterOperand, State.operand, State.touch_cpu]

theorem State.compareWith_eq (s : State) (l : Byte) (m : Source) :
    s.compareWith l m = { s.afterOperand m with
      cpu := { s.cpu with
        p := withCZN s.cpu.p (decide ((s.operand m).toNat ≤ l.toNat)) (l - s.operand m) } } := by
  simp only [State.compareWith, State.setP, compare_eq, State.afterOperand_cpu]

theorem State.rmw_acc_eq (s : State) (g : Byte → Byte → Byte × Byte) :
    s.rmw g .acc = { s with
      cpu := { s.cpu with
        a := (g s.cpu.p s.cpu.a).1
        p := withZN (g s.cpu.p s.cpu.a).2 (g s.cpu.p s.cpu.a).1 } } := by
  simp only [State.rmw, State.setA, State.setP, State.setZN, setZN_eq]

/-- A read-modify-write of memory: one read, one write, and P. -/
theorem State.rmw_mem_eq (s : State) (g : Byte → Byte → Byte × Byte) (f : MemForm) :
    s.rmw g (.mem f) =
      { (s.touch (s.ea f)).memWrite (s.ea f) (g s.cpu.p (s.peek (s.ea f))).1 with
        cpu := { s.cpu with
          p := withZN (g s.cpu.p (s.peek (s.ea f))).2 (g s.cpu.p (s.peek (s.ea f))).1 } } := by
  simp only [State.rmw, State.setP, State.memWrite_withCpu, State.setZN, State.touch_cpu, setZN_eq]

/-- A branch target is PC plus the displacement as a signed number, modulo 65536. -/
theorem State.branchTarget_eq (s : State) (d : Byte) :
    s.branchTarget d = BitVec.ofInt 16 (s.cpu.pc.toNat + d.toInt) := by
  rw [State.branchTarget, BitVec.ofInt_add, BitVec.signExtend, BitVec.ofInt_natCast]
  simp

theorem State.interruptReturn_eq (s : State) :
    s.interruptReturn = { s with
      cpu := { s.cpu with
        s := s.cpu.s + 3
        p := s.wram.read (0x100 + (s.cpu.s + 1).toNat)
        pc := ofHiLo (s.wram.read (0x100 + (s.cpu.s + 3).toNat))
          (s.wram.read (0x100 + (s.cpu.s + 2).toNat)) } } := by
  simp only [State.interruptReturn, State.pull16_eq, State.pulled16_eq, State.pulled_eq]
  simp [State.setPc, State.setP, State.pull, State.setS, BitVec.add_assoc]

end Sys2Proof.Machine
end

