-- ==== Sys2Proof/Laws/PerInstr.lean ====
section
/-! SUPPORT. One lemma per instruction of what the encoding tables say of it as syntax. -/

/-- The instruction has as many operand bytes as the length of its mode says (30_encoding.md R75,
R76), and its opcode byte maps to its own mnemonic and mode, whatever bytes follow (R78, R83). -/
def Sys2Proof.Laws.Encoding.Statement (i : Sys2Proof.Instr) : Prop :=
  i.info.operand.length + 1 = i.length ∧
  ∀ b1 b2, (Sys2Proof.decode3 i.opcode b1 b2).map (fun j => (j.mnemonic, j.mode)) =
    some (i.mnemonic, i.mode)

namespace Sys2Proof.Laws.Encoding

theorem ldaImm (v : Byte) : Statement (.ldaImm v) :=
  ⟨rfl, fun b1 b2 => congrArg _ (rfl : decode3 0xA9 b1 b2 = some (.ldaImm b1))⟩

theorem ldaZp (b : Byte) : Statement (.ldaZp b) :=
  ⟨rfl, fun b1 b2 => congrArg _ (rfl : decode3 0xA5 b1 b2 = some (.ldaZp b1))⟩

theorem ldaZpx (b : Byte) : Statement (.ldaZpx b) :=
  ⟨rfl, fun b1 b2 => congrArg _ (rfl : decode3 0xB5 b1 b2 = some (.ldaZpx b1))⟩

theorem ldaAbs (w : Word) : Statement (.ldaAbs w) :=
  ⟨rfl, fun b1 b2 => congrArg _ (rfl : decode3 0xAD b1 b2 = some (.ldaAbs (ofHiLo b2 b1)))⟩

theorem ldaAbsx (w : Word) : Statement (.ldaAbsx w) :=
  ⟨rfl, fun b1 b2 => congrArg _ (rfl : decode3 0xBD b1 b2 = some (.ldaAbsx (ofHiLo b2 b1)))⟩

theorem ldaAbsy (w : Word) : Statement (.ldaAbsy w) :=
  ⟨rfl, fun b1 b2 => congrArg _ (rfl : decode3 0xB9 b1 b2 = some (.ldaAbsy (ofHiLo b2 b1)))⟩

theorem ldaIndx (b : Byte) : Statement (.ldaIndx b) :=
  ⟨rfl, fun b1 b2 => congrArg _ (rfl : decode3 0xA1 b1 b2 = some (.ldaIndx b1))⟩

theorem ldaIndy (b : Byte) : Statement (.ldaIndy b) :=
  ⟨rfl, fun b1 b2 => congrArg _ (rfl : decode3 0xB1 b1 b2 = some (.ldaIndy b1))⟩

theorem ldxImm (v : Byte) : Statement (.ldxImm v) :=
  ⟨rfl, fun b1 b2 => congrArg _ (rfl : decode3 0xA2 b1 b2 = some (.ldxImm b1))⟩

theorem ldxZp (b : Byte) : Statement (.ldxZp b) :=
  ⟨rfl, fun b1 b2 => congrArg _ (rfl : decode3 0xA6 b1 b2 = some (.ldxZp b1))⟩

theorem ldxZpy (b : Byte) : Statement (.ldxZpy b) :=
  ⟨rfl, fun b1 b2 => congrArg _ (rfl : decode3 0xB6 b1 b2 = some (.ldxZpy b1))⟩

theorem ldxAbs (w : Word) : Statement (.ldxAbs w) :=
  ⟨rfl, fun b1 b2 => congrArg _ (rfl : decode3 0xAE b1 b2 = some (.ldxAbs (ofHiLo b2 b1)))⟩

theorem ldxAbsy (w : Word) : Statement (.ldxAbsy w) :=
  ⟨rfl, fun b1 b2 => congrArg _ (rfl : decode3 0xBE b1 b2 = some (.ldxAbsy (ofHiLo b2 b1)))⟩

theorem ldyImm (v : Byte) : Statement (.ldyImm v) :=
  ⟨rfl, fun b1 b2 => congrArg _ (rfl : decode3 0xA0 b1 b2 = some (.ldyImm b1))⟩

theorem ldyZp (b : Byte) : Statement (.ldyZp b) :=
  ⟨rfl, fun b1 b2 => congrArg _ (rfl : decode3 0xA4 b1 b2 = some (.ldyZp b1))⟩

theorem ldyZpx (b : Byte) : Statement (.ldyZpx b) :=
  ⟨rfl, fun b1 b2 => congrArg _ (rfl : decode3 0xB4 b1 b2 = some (.ldyZpx b1))⟩

theorem ldyAbs (w : Word) : Statement (.ldyAbs w) :=
  ⟨rfl, fun b1 b2 => congrArg _ (rfl : decode3 0xAC b1 b2 = some (.ldyAbs (ofHiLo b2 b1)))⟩

theorem ldyAbsx (w : Word) : Statement (.ldyAbsx w) :=
  ⟨rfl, fun b1 b2 => congrArg _ (rfl : decode3 0xBC b1 b2 = some (.ldyAbsx (ofHiLo b2 b1)))⟩

theorem staZp (b : Byte) : Statement (.staZp b) :=
  ⟨rfl, fun b1 b2 => congrArg _ (rfl : decode3 0x85 b1 b2 = some (.staZp b1))⟩

theorem staZpx (b : Byte) : Statement (.staZpx b) :=
  ⟨rfl, fun b1 b2 => congrArg _ (rfl : decode3 0x95 b1 b2 = some (.staZpx b1))⟩

theorem staAbs (w : Word) : Statement (.staAbs w) :=
  ⟨rfl, fun b1 b2 => congrArg _ (rfl : decode3 0x8D b1 b2 = some (.staAbs (ofHiLo b2 b1)))⟩

theorem staAbsx (w : Word) : Statement (.staAbsx w) :=
  ⟨rfl, fun b1 b2 => congrArg _ (rfl : decode3 0x9D b1 b2 = some (.staAbsx (ofHiLo b2 b1)))⟩

theorem staAbsy (w : Word) : Statement (.staAbsy w) :=
  ⟨rfl, fun b1 b2 => congrArg _ (rfl : decode3 0x99 b1 b2 = some (.staAbsy (ofHiLo b2 b1)))⟩

theorem staIndx (b : Byte) : Statement (.staIndx b) :=
  ⟨rfl, fun b1 b2 => congrArg _ (rfl : decode3 0x81 b1 b2 = some (.staIndx b1))⟩

theorem staIndy (b : Byte) : Statement (.staIndy b) :=
  ⟨rfl, fun b1 b2 => congrArg _ (rfl : decode3 0x91 b1 b2 = some (.staIndy b1))⟩

theorem stxZp (b : Byte) : Statement (.stxZp b) :=
  ⟨rfl, fun b1 b2 => congrArg _ (rfl : decode3 0x86 b1 b2 = some (.stxZp b1))⟩

theorem stxZpy (b : Byte) : Statement (.stxZpy b) :=
  ⟨rfl, fun b1 b2 => congrArg _ (rfl : decode3 0x96 b1 b2 = some (.stxZpy b1))⟩

theorem stxAbs (w : Word) : Statement (.stxAbs w) :=
  ⟨rfl, fun b1 b2 => congrArg _ (rfl : decode3 0x8E b1 b2 = some (.stxAbs (ofHiLo b2 b1)))⟩

theorem styZp (b : Byte) : Statement (.styZp b) :=
  ⟨rfl, fun b1 b2 => congrArg _ (rfl : decode3 0x84 b1 b2 = some (.styZp b1))⟩

theorem styZpx (b : Byte) : Statement (.styZpx b) :=
  ⟨rfl, fun b1 b2 => congrArg _ (rfl : decode3 0x94 b1 b2 = some (.styZpx b1))⟩

theorem styAbs (w : Word) : Statement (.styAbs w) :=
  ⟨rfl, fun b1 b2 => congrArg _ (rfl : decode3 0x8C b1 b2 = some (.styAbs (ofHiLo b2 b1)))⟩

theorem tax : Statement .tax :=
  ⟨rfl, fun b1 b2 => congrArg _ (rfl : decode3 0xAA b1 b2 = some .tax)⟩

theorem tay : Statement .tay :=
  ⟨rfl, fun b1 b2 => congrArg _ (rfl : decode3 0xA8 b1 b2 = some .tay)⟩

theorem txa : Statement .txa :=
  ⟨rfl, fun b1 b2 => congrArg _ (rfl : decode3 0x8A b1 b2 = some .txa)⟩

theorem tya : Statement .tya :=
  ⟨rfl, fun b1 b2 => congrArg _ (rfl : decode3 0x98 b1 b2 = some .tya)⟩

theorem tsx : Statement .tsx :=
  ⟨rfl, fun b1 b2 => congrArg _ (rfl : decode3 0xBA b1 b2 = some .tsx)⟩

theorem txs : Statement .txs :=
  ⟨rfl, fun b1 b2 => congrArg _ (rfl : decode3 0x9A b1 b2 = some .txs)⟩

theorem adcImm (v : Byte) : Statement (.adcImm v) :=
  ⟨rfl, fun b1 b2 => congrArg _ (rfl : decode3 0x69 b1 b2 = some (.adcImm b1))⟩

theorem adcZp (b : Byte) : Statement (.adcZp b) :=
  ⟨rfl, fun b1 b2 => congrArg _ (rfl : decode3 0x65 b1 b2 = some (.adcZp b1))⟩

theorem adcZpx (b : Byte) : Statement (.adcZpx b) :=
  ⟨rfl, fun b1 b2 => congrArg _ (rfl : decode3 0x75 b1 b2 = some (.adcZpx b1))⟩

theorem adcAbs (w : Word) : Statement (.adcAbs w) :=
  ⟨rfl, fun b1 b2 => congrArg _ (rfl : decode3 0x6D b1 b2 = some (.adcAbs (ofHiLo b2 b1)))⟩

theorem adcAbsx (w : Word) : Statement (.adcAbsx w) :=
  ⟨rfl, fun b1 b2 => congrArg _ (rfl : decode3 0x7D b1 b2 = some (.adcAbsx (ofHiLo b2 b1)))⟩

theorem adcAbsy (w : Word) : Statement (.adcAbsy w) :=
  ⟨rfl, fun b1 b2 => congrArg _ (rfl : decode3 0x79 b1 b2 = some (.adcAbsy (ofHiLo b2 b1)))⟩

theorem adcIndx (b : Byte) : Statement (.adcIndx b) :=
  ⟨rfl, fun b1 b2 => congrArg _ (rfl : decode3 0x61 b1 b2 = some (.adcIndx b1))⟩

theorem adcIndy (b : Byte) : Statement (.adcIndy b) :=
  ⟨rfl, fun b1 b2 => congrArg _ (rfl : decode3 0x71 b1 b2 = some (.adcIndy b1))⟩

theorem sbcImm (v : Byte) : Statement (.sbcImm v) :=
  ⟨rfl, fun b1 b2 => congrArg _ (rfl : decode3 0xE9 b1 b2 = some (.sbcImm b1))⟩

theorem sbcZp (b : Byte) : Statement (.sbcZp b) :=
  ⟨rfl, fun b1 b2 => congrArg _ (rfl : decode3 0xE5 b1 b2 = some (.sbcZp b1))⟩

theorem sbcZpx (b : Byte) : Statement (.sbcZpx b) :=
  ⟨rfl, fun b1 b2 => congrArg _ (rfl : decode3 0xF5 b1 b2 = some (.sbcZpx b1))⟩

theorem sbcAbs (w : Word) : Statement (.sbcAbs w) :=
  ⟨rfl, fun b1 b2 => congrArg _ (rfl : decode3 0xED b1 b2 = some (.sbcAbs (ofHiLo b2 b1)))⟩

theorem sbcAbsx (w : Word) : Statement (.sbcAbsx w) :=
  ⟨rfl, fun b1 b2 => congrArg _ (rfl : decode3 0xFD b1 b2 = some (.sbcAbsx (ofHiLo b2 b1)))⟩

theorem sbcAbsy (w : Word) : Statement (.sbcAbsy w) :=
  ⟨rfl, fun b1 b2 => congrArg _ (rfl : decode3 0xF9 b1 b2 = some (.sbcAbsy (ofHiLo b2 b1)))⟩

theorem sbcIndx (b : Byte) : Statement (.sbcIndx b) :=
  ⟨rfl, fun b1 b2 => congrArg _ (rfl : decode3 0xE1 b1 b2 = some (.sbcIndx b1))⟩

theorem sbcIndy (b : Byte) : Statement (.sbcIndy b) :=
  ⟨rfl, fun b1 b2 => congrArg _ (rfl : decode3 0xF1 b1 b2 = some (.sbcIndy b1))⟩

theorem andImm (v : Byte) : Statement (.andImm v) :=
  ⟨rfl, fun b1 b2 => congrArg _ (rfl : decode3 0x29 b1 b2 = some (.andImm b1))⟩

theorem andZp (b : Byte) : Statement (.andZp b) :=
  ⟨rfl, fun b1 b2 => congrArg _ (rfl : decode3 0x25 b1 b2 = some (.andZp b1))⟩

theorem andZpx (b : Byte) : Statement (.andZpx b) :=
  ⟨rfl, fun b1 b2 => congrArg _ (rfl : decode3 0x35 b1 b2 = some (.andZpx b1))⟩

theorem andAbs (w : Word) : Statement (.andAbs w) :=
  ⟨rfl, fun b1 b2 => congrArg _ (rfl : decode3 0x2D b1 b2 = some (.andAbs (ofHiLo b2 b1)))⟩

theorem andAbsx (w : Word) : Statement (.andAbsx w) :=
  ⟨rfl, fun b1 b2 => congrArg _ (rfl : decode3 0x3D b1 b2 = some (.andAbsx (ofHiLo b2 b1)))⟩

theorem andAbsy (w : Word) : Statement (.andAbsy w) :=
  ⟨rfl, fun b1 b2 => congrArg _ (rfl : decode3 0x39 b1 b2 = some (.andAbsy (ofHiLo b2 b1)))⟩

theorem andIndx (b : Byte) : Statement (.andIndx b) :=
  ⟨rfl, fun b1 b2 => congrArg _ (rfl : decode3 0x21 b1 b2 = some (.andIndx b1))⟩

theorem andIndy (b : Byte) : Statement (.andIndy b) :=
  ⟨rfl, fun b1 b2 => congrArg _ (rfl : decode3 0x31 b1 b2 = some (.andIndy b1))⟩

theorem oraImm (v : Byte) : Statement (.oraImm v) :=
  ⟨rfl, fun b1 b2 => congrArg _ (rfl : decode3 0x09 b1 b2 = some (.oraImm b1))⟩

theorem oraZp (b : Byte) : Statement (.oraZp b) :=
  ⟨rfl, fun b1 b2 => congrArg _ (rfl : decode3 0x05 b1 b2 = some (.oraZp b1))⟩

theorem oraZpx (b : Byte) : Statement (.oraZpx b) :=
  ⟨rfl, fun b1 b2 => congrArg _ (rfl : decode3 0x15 b1 b2 = some (.oraZpx b1))⟩

theorem oraAbs (w : Word) : Statement (.oraAbs w) :=
  ⟨rfl, fun b1 b2 => congrArg _ (rfl : decode3 0x0D b1 b2 = some (.oraAbs (ofHiLo b2 b1)))⟩

theorem oraAbsx (w : Word) : Statement (.oraAbsx w) :=
  ⟨rfl, fun b1 b2 => congrArg _ (rfl : decode3 0x1D b1 b2 = some (.oraAbsx (ofHiLo b2 b1)))⟩

theorem oraAbsy (w : Word) : Statement (.oraAbsy w) :=
  ⟨rfl, fun b1 b2 => congrArg _ (rfl : decode3 0x19 b1 b2 = some (.oraAbsy (ofHiLo b2 b1)))⟩

theorem oraIndx (b : Byte) : Statement (.oraIndx b) :=
  ⟨rfl, fun b1 b2 => congrArg _ (rfl : decode3 0x01 b1 b2 = some (.oraIndx b1))⟩

theorem oraIndy (b : Byte) : Statement (.oraIndy b) :=
  ⟨rfl, fun b1 b2 => congrArg _ (rfl : decode3 0x11 b1 b2 = some (.oraIndy b1))⟩

theorem eorImm (v : Byte) : Statement (.eorImm v) :=
  ⟨rfl, fun b1 b2 => congrArg _ (rfl : decode3 0x49 b1 b2 = some (.eorImm b1))⟩

theorem eorZp (b : Byte) : Statement (.eorZp b) :=
  ⟨rfl, fun b1 b2 => congrArg _ (rfl : decode3 0x45 b1 b2 = some (.eorZp b1))⟩

theorem eorZpx (b : Byte) : Statement (.eorZpx b) :=
  ⟨rfl, fun b1 b2 => congrArg _ (rfl : decode3 0x55 b1 b2 = some (.eorZpx b1))⟩

theorem eorAbs (w : Word) : Statement (.eorAbs w) :=
  ⟨rfl, fun b1 b2 => congrArg _ (rfl : decode3 0x4D b1 b2 = some (.eorAbs (ofHiLo b2 b1)))⟩

theorem eorAbsx (w : Word) : Statement (.eorAbsx w) :=
  ⟨rfl, fun b1 b2 => congrArg _ (rfl : decode3 0x5D b1 b2 = some (.eorAbsx (ofHiLo b2 b1)))⟩

theorem eorAbsy (w : Word) : Statement (.eorAbsy w) :=
  ⟨rfl, fun b1 b2 => congrArg _ (rfl : decode3 0x59 b1 b2 = some (.eorAbsy (ofHiLo b2 b1)))⟩

theorem eorIndx (b : Byte) : Statement (.eorIndx b) :=
  ⟨rfl, fun b1 b2 => congrArg _ (rfl : decode3 0x41 b1 b2 = some (.eorIndx b1))⟩

theorem eorIndy (b : Byte) : Statement (.eorIndy b) :=
  ⟨rfl, fun b1 b2 => congrArg _ (rfl : decode3 0x51 b1 b2 = some (.eorIndy b1))⟩

theorem bitZp (b : Byte) : Statement (.bitZp b) :=
  ⟨rfl, fun b1 b2 => congrArg _ (rfl : decode3 0x24 b1 b2 = some (.bitZp b1))⟩

theorem bitAbs (w : Word) : Statement (.bitAbs w) :=
  ⟨rfl, fun b1 b2 => congrArg _ (rfl : decode3 0x2C b1 b2 = some (.bitAbs (ofHiLo b2 b1)))⟩

theorem cmpImm (v : Byte) : Statement (.cmpImm v) :=
  ⟨rfl, fun b1 b2 => congrArg _ (rfl : decode3 0xC9 b1 b2 = some (.cmpImm b1))⟩

theorem cmpZp (b : Byte) : Statement (.cmpZp b) :=
  ⟨rfl, fun b1 b2 => congrArg _ (rfl : decode3 0xC5 b1 b2 = some (.cmpZp b1))⟩

theorem cmpZpx (b : Byte) : Statement (.cmpZpx b) :=
  ⟨rfl, fun b1 b2 => congrArg _ (rfl : decode3 0xD5 b1 b2 = some (.cmpZpx b1))⟩

theorem cmpAbs (w : Word) : Statement (.cmpAbs w) :=
  ⟨rfl, fun b1 b2 => congrArg _ (rfl : decode3 0xCD b1 b2 = some (.cmpAbs (ofHiLo b2 b1)))⟩

theorem cmpAbsx (w : Word) : Statement (.cmpAbsx w) :=
  ⟨rfl, fun b1 b2 => congrArg _ (rfl : decode3 0xDD b1 b2 = some (.cmpAbsx (ofHiLo b2 b1)))⟩

theorem cmpAbsy (w : Word) : Statement (.cmpAbsy w) :=
  ⟨rfl, fun b1 b2 => congrArg _ (rfl : decode3 0xD9 b1 b2 = some (.cmpAbsy (ofHiLo b2 b1)))⟩

theorem cmpIndx (b : Byte) : Statement (.cmpIndx b) :=
  ⟨rfl, fun b1 b2 => congrArg _ (rfl : decode3 0xC1 b1 b2 = some (.cmpIndx b1))⟩

theorem cmpIndy (b : Byte) : Statement (.cmpIndy b) :=
  ⟨rfl, fun b1 b2 => congrArg _ (rfl : decode3 0xD1 b1 b2 = some (.cmpIndy b1))⟩

theorem cpxImm (v : Byte) : Statement (.cpxImm v) :=
  ⟨rfl, fun b1 b2 => congrArg _ (rfl : decode3 0xE0 b1 b2 = some (.cpxImm b1))⟩

theorem cpxZp (b : Byte) : Statement (.cpxZp b) :=
  ⟨rfl, fun b1 b2 => congrArg _ (rfl : decode3 0xE4 b1 b2 = some (.cpxZp b1))⟩

theorem cpxAbs (w : Word) : Statement (.cpxAbs w) :=
  ⟨rfl, fun b1 b2 => congrArg _ (rfl : decode3 0xEC b1 b2 = some (.cpxAbs (ofHiLo b2 b1)))⟩

theorem cpyImm (v : Byte) : Statement (.cpyImm v) :=
  ⟨rfl, fun b1 b2 => congrArg _ (rfl : decode3 0xC0 b1 b2 = some (.cpyImm b1))⟩

theorem cpyZp (b : Byte) : Statement (.cpyZp b) :=
  ⟨rfl, fun b1 b2 => congrArg _ (rfl : decode3 0xC4 b1 b2 = some (.cpyZp b1))⟩

theorem cpyAbs (w : Word) : Statement (.cpyAbs w) :=
  ⟨rfl, fun b1 b2 => congrArg _ (rfl : decode3 0xCC b1 b2 = some (.cpyAbs (ofHiLo b2 b1)))⟩

theorem incZp (b : Byte) : Statement (.incZp b) :=
  ⟨rfl, fun b1 b2 => congrArg _ (rfl : decode3 0xE6 b1 b2 = some (.incZp b1))⟩

theorem incZpx (b : Byte) : Statement (.incZpx b) :=
  ⟨rfl, fun b1 b2 => congrArg _ (rfl : decode3 0xF6 b1 b2 = some (.incZpx b1))⟩

theorem incAbs (w : Word) : Statement (.incAbs w) :=
  ⟨rfl, fun b1 b2 => congrArg _ (rfl : decode3 0xEE b1 b2 = some (.incAbs (ofHiLo b2 b1)))⟩

theorem incAbsx (w : Word) : Statement (.incAbsx w) :=
  ⟨rfl, fun b1 b2 => congrArg _ (rfl : decode3 0xFE b1 b2 = some (.incAbsx (ofHiLo b2 b1)))⟩

theorem decZp (b : Byte) : Statement (.decZp b) :=
  ⟨rfl, fun b1 b2 => congrArg _ (rfl : decode3 0xC6 b1 b2 = some (.decZp b1))⟩

theorem decZpx (b : Byte) : Statement (.decZpx b) :=
  ⟨rfl, fun b1 b2 => congrArg _ (rfl : decode3 0xD6 b1 b2 = some (.decZpx b1))⟩

theorem decAbs (w : Word) : Statement (.decAbs w) :=
  ⟨rfl, fun b1 b2 => congrArg _ (rfl : decode3 0xCE b1 b2 = some (.decAbs (ofHiLo b2 b1)))⟩

theorem decAbsx (w : Word) : Statement (.decAbsx w) :=
  ⟨rfl, fun b1 b2 => congrArg _ (rfl : decode3 0xDE b1 b2 = some (.decAbsx (ofHiLo b2 b1)))⟩

theorem inx : Statement .inx :=
  ⟨rfl, fun b1 b2 => congrArg _ (rfl : decode3 0xE8 b1 b2 = some .inx)⟩

theorem iny : Statement .iny :=
  ⟨rfl, fun b1 b2 => congrArg _ (rfl : decode3 0xC8 b1 b2 = some .iny)⟩

theorem dex : Statement .dex :=
  ⟨rfl, fun b1 b2 => congrArg _ (rfl : decode3 0xCA b1 b2 = some .dex)⟩

theorem dey : Statement .dey :=
  ⟨rfl, fun b1 b2 => congrArg _ (rfl : decode3 0x88 b1 b2 = some .dey)⟩

theorem aslAcc : Statement .aslAcc :=
  ⟨rfl, fun b1 b2 => congrArg _ (rfl : decode3 0x0A b1 b2 = some .aslAcc)⟩

theorem aslZp (b : Byte) : Statement (.aslZp b) :=
  ⟨rfl, fun b1 b2 => congrArg _ (rfl : decode3 0x06 b1 b2 = some (.aslZp b1))⟩

theorem aslZpx (b : Byte) : Statement (.aslZpx b) :=
  ⟨rfl, fun b1 b2 => congrArg _ (rfl : decode3 0x16 b1 b2 = some (.aslZpx b1))⟩

theorem aslAbs (w : Word) : Statement (.aslAbs w) :=
  ⟨rfl, fun b1 b2 => congrArg _ (rfl : decode3 0x0E b1 b2 = some (.aslAbs (ofHiLo b2 b1)))⟩

theorem aslAbsx (w : Word) : Statement (.aslAbsx w) :=
  ⟨rfl, fun b1 b2 => congrArg _ (rfl : decode3 0x1E b1 b2 = some (.aslAbsx (ofHiLo b2 b1)))⟩

theorem lsrAcc : Statement .lsrAcc :=
  ⟨rfl, fun b1 b2 => congrArg _ (rfl : decode3 0x4A b1 b2 = some .lsrAcc)⟩

theorem lsrZp (b : Byte) : Statement (.lsrZp b) :=
  ⟨rfl, fun b1 b2 => congrArg _ (rfl : decode3 0x46 b1 b2 = some (.lsrZp b1))⟩

theorem lsrZpx (b : Byte) : Statement (.lsrZpx b) :=
  ⟨rfl, fun b1 b2 => congrArg _ (rfl : decode3 0x56 b1 b2 = some (.lsrZpx b1))⟩

theorem lsrAbs (w : Word) : Statement (.lsrAbs w) :=
  ⟨rfl, fun b1 b2 => congrArg _ (rfl : decode3 0x4E b1 b2 = some (.lsrAbs (ofHiLo b2 b1)))⟩

theorem lsrAbsx (w : Word) : Statement (.lsrAbsx w) :=
  ⟨rfl, fun b1 b2 => congrArg _ (rfl : decode3 0x5E b1 b2 = some (.lsrAbsx (ofHiLo b2 b1)))⟩

theorem rolAcc : Statement .rolAcc :=
  ⟨rfl, fun b1 b2 => congrArg _ (rfl : decode3 0x2A b1 b2 = some .rolAcc)⟩

theorem rolZp (b : Byte) : Statement (.rolZp b) :=
  ⟨rfl, fun b1 b2 => congrArg _ (rfl : decode3 0x26 b1 b2 = some (.rolZp b1))⟩

theorem rolZpx (b : Byte) : Statement (.rolZpx b) :=
  ⟨rfl, fun b1 b2 => congrArg _ (rfl : decode3 0x36 b1 b2 = some (.rolZpx b1))⟩

theorem rolAbs (w : Word) : Statement (.rolAbs w) :=
  ⟨rfl, fun b1 b2 => congrArg _ (rfl : decode3 0x2E b1 b2 = some (.rolAbs (ofHiLo b2 b1)))⟩

theorem rolAbsx (w : Word) : Statement (.rolAbsx w) :=
  ⟨rfl, fun b1 b2 => congrArg _ (rfl : decode3 0x3E b1 b2 = some (.rolAbsx (ofHiLo b2 b1)))⟩

theorem rorAcc : Statement .rorAcc :=
  ⟨rfl, fun b1 b2 => congrArg _ (rfl : decode3 0x6A b1 b2 = some .rorAcc)⟩

theorem rorZp (b : Byte) : Statement (.rorZp b) :=
  ⟨rfl, fun b1 b2 => congrArg _ (rfl : decode3 0x66 b1 b2 = some (.rorZp b1))⟩

theorem rorZpx (b : Byte) : Statement (.rorZpx b) :=
  ⟨rfl, fun b1 b2 => congrArg _ (rfl : decode3 0x76 b1 b2 = some (.rorZpx b1))⟩

theorem rorAbs (w : Word) : Statement (.rorAbs w) :=
  ⟨rfl, fun b1 b2 => congrArg _ (rfl : decode3 0x6E b1 b2 = some (.rorAbs (ofHiLo b2 b1)))⟩

theorem rorAbsx (w : Word) : Statement (.rorAbsx w) :=
  ⟨rfl, fun b1 b2 => congrArg _ (rfl : decode3 0x7E b1 b2 = some (.rorAbsx (ofHiLo b2 b1)))⟩

theorem bcc (d : Byte) : Statement (.bcc d) :=
  ⟨rfl, fun b1 b2 => congrArg _ (rfl : decode3 0x90 b1 b2 = some (.bcc b1))⟩

theorem bcs (d : Byte) : Statement (.bcs d) :=
  ⟨rfl, fun b1 b2 => congrArg _ (rfl : decode3 0xB0 b1 b2 = some (.bcs b1))⟩

theorem beq (d : Byte) : Statement (.beq d) :=
  ⟨rfl, fun b1 b2 => congrArg _ (rfl : decode3 0xF0 b1 b2 = some (.beq b1))⟩

theorem bmi (d : Byte) : Statement (.bmi d) :=
  ⟨rfl, fun b1 b2 => congrArg _ (rfl : decode3 0x30 b1 b2 = some (.bmi b1))⟩

theorem bne (d : Byte) : Statement (.bne d) :=
  ⟨rfl, fun b1 b2 => congrArg _ (rfl : decode3 0xD0 b1 b2 = some (.bne b1))⟩

theorem bpl (d : Byte) : Statement (.bpl d) :=
  ⟨rfl, fun b1 b2 => congrArg _ (rfl : decode3 0x10 b1 b2 = some (.bpl b1))⟩

theorem bvc (d : Byte) : Statement (.bvc d) :=
  ⟨rfl, fun b1 b2 => congrArg _ (rfl : decode3 0x50 b1 b2 = some (.bvc b1))⟩

theorem bvs (d : Byte) : Statement (.bvs d) :=
  ⟨rfl, fun b1 b2 => congrArg _ (rfl : decode3 0x70 b1 b2 = some (.bvs b1))⟩

theorem jmpAbs (w : Word) : Statement (.jmpAbs w) :=
  ⟨rfl, fun b1 b2 => congrArg _ (rfl : decode3 0x4C b1 b2 = some (.jmpAbs (ofHiLo b2 b1)))⟩

theorem jmpInd (w : Word) : Statement (.jmpInd w) :=
  ⟨rfl, fun b1 b2 => congrArg _ (rfl : decode3 0x6C b1 b2 = some (.jmpInd (ofHiLo b2 b1)))⟩

theorem jsrAbs (w : Word) : Statement (.jsrAbs w) :=
  ⟨rfl, fun b1 b2 => congrArg _ (rfl : decode3 0x20 b1 b2 = some (.jsrAbs (ofHiLo b2 b1)))⟩

theorem rts : Statement .rts :=
  ⟨rfl, fun b1 b2 => congrArg _ (rfl : decode3 0x60 b1 b2 = some .rts)⟩

theorem pha : Statement .pha :=
  ⟨rfl, fun b1 b2 => congrArg _ (rfl : decode3 0x48 b1 b2 = some .pha)⟩

theorem php : Statement .php :=
  ⟨rfl, fun b1 b2 => congrArg _ (rfl : decode3 0x08 b1 b2 = some .php)⟩

theorem pla : Statement .pla :=
  ⟨rfl, fun b1 b2 => congrArg _ (rfl : decode3 0x68 b1 b2 = some .pla)⟩

theorem plp : Statement .plp :=
  ⟨rfl, fun b1 b2 => congrArg _ (rfl : decode3 0x28 b1 b2 = some .plp)⟩

theorem clc : Statement .clc :=
  ⟨rfl, fun b1 b2 => congrArg _ (rfl : decode3 0x18 b1 b2 = some .clc)⟩

theorem cld : Statement .cld :=
  ⟨rfl, fun b1 b2 => congrArg _ (rfl : decode3 0xD8 b1 b2 = some .cld)⟩

theorem cli : Statement .cli :=
  ⟨rfl, fun b1 b2 => congrArg _ (rfl : decode3 0x58 b1 b2 = some .cli)⟩

theorem clv : Statement .clv :=
  ⟨rfl, fun b1 b2 => congrArg _ (rfl : decode3 0xB8 b1 b2 = some .clv)⟩

theorem sec : Statement .sec :=
  ⟨rfl, fun b1 b2 => congrArg _ (rfl : decode3 0x38 b1 b2 = some .sec)⟩

theorem sed : Statement .sed :=
  ⟨rfl, fun b1 b2 => congrArg _ (rfl : decode3 0xF8 b1 b2 = some .sed)⟩

theorem sei : Statement .sei :=
  ⟨rfl, fun b1 b2 => congrArg _ (rfl : decode3 0x78 b1 b2 = some .sei)⟩

theorem brk : Statement .brk :=
  ⟨rfl, fun b1 b2 => congrArg _ (rfl : decode3 0x00 b1 b2 = some .brk)⟩

theorem rti : Statement .rti :=
  ⟨rfl, fun b1 b2 => congrArg _ (rfl : decode3 0x40 b1 b2 = some .rti)⟩

theorem nop : Statement .nop :=
  ⟨rfl, fun b1 b2 => congrArg _ (rfl : decode3 0xEA b1 b2 = some .nop)⟩

end Sys2Proof.Laws.Encoding
end

