-- ==== Sys2Proof/Laws/Step.lean ====
section
/-! SUPPORT. What a step can do (one inversion lemma), and what an instruction and the end of an
iteration leave alone. -/

namespace Sys2Proof.Machine

/-- Every instruction completes. -/
theorem exec_next (i : Instr) (s : State) : ∃ t, exec i s = .next t := by cases i <;> exact ⟨_, rfl⟩

/-- An instruction changes none of the machine's control items. -/
theorem Accesses.control {s t : State} {l : List Word} (h : Accesses s l t) :
    t.halted = s.halted ∧ t.stopSignal = s.stopSignal ∧ t.nmiPending = s.nmiPending ∧
      t.running = s.running ∧ t.params = s.params := by
  induction h with
  | none => exact ⟨rfl, rfl, rfl, rfl, rfl⟩
  | cpu c _ ih => exact ih
  | read a _ ih => simpa using ih
  | write a v _ ih => simpa using ih

theorem exec_control {i : Instr} {s t : State} (h : exec i s = .next t) :
    t.halted = s.halted ∧ t.stopSignal = s.stopSignal ∧ t.nmiPending = s.nmiPending ∧
      t.running = s.running ∧ t.params = s.params :=
  (exec_accesses h).control

theorem Accesses.inv {s t : State} {l : List Word} (h : Accesses s l t) (hs : s.Inv) : t.Inv := by
  induction h with
  | none => exact hs
  | cpu c _ ih => exact ⟨ih.wram, ih.ctrlIndex, ih.cart, ih.ppu, ih.stop⟩
  | read a _ ih => exact ih.touch a
  | write a v _ ih => exact ih.memWrite a v

/-- An instruction keeps the invariant. -/
theorem exec_inv {i : Instr} {s t : State} (h : exec i s = .next t) (hs : s.Inv) : t.Inv :=
  (exec_accesses h).inv hs

/-! ### The step -/

/-- A step answers a next state only from a live state. -/
theorem live_of_step {s t : State} (h : step s = .next t) : s.Live := by
  unfold step at h
  by_cases hr : s.running = true
  · by_cases hh : s.halted = true
    · simp [hr, hh] at h
    · exact ⟨hr, by simpa using hh⟩
  · simp [hr] at h

/-- From a live state, a step runs a decoded well-formed instruction to its end, or halts. -/
theorem step_cases (s : State) (hl : s.Live) :
    (∃ i t, s.fetched = some i ∧ i.wellFormed s.params = true ∧ i.opcode = s.fetch0 ∧
      exec i (s.afterFetch.advancePc i) = .next t ∧
      step s = .next (t.finish (cyclesOf s.params s.fetch0))) ∨
    (s.fetched = none ∧ step s = .next (s.afterFetch.halt (.invalidOpcode s.fetch0 s.cpu.pc))) ∨
    ∃ i, s.fetched = some i ∧ i.wellFormed s.params = false ∧
      step s = .next (s.afterFetch.halt (.unimplemented s.fetch0 s.cpu.pc)) := by
  unfold step
  simp only [hl.1, hl.2, Bool.not_true, Bool.false_eq_true, if_false]
  cases hf : s.fetched with
  | none => exact .inr (.inl ⟨rfl, rfl⟩)
  | some i =>
    have ho : i.opcode = s.fetch0 := opcode_of_decode3 hf
    cases hw : i.wellFormed s.params with
    | false => exact .inr (.inr ⟨i, rfl, hw, by simp [hw]⟩)
    | true =>
      obtain ⟨t, ht⟩ := exec_next i (s.afterFetch.advancePc i)
      exact .inl ⟨i, t, rfl, hw, ho, ht, by simp only [hw, if_true, ht, ho]⟩

@[simp] theorem State.afterFetch_cpu (s : State) : s.afterFetch.cpu = s.cpu := by
  simp [State.afterFetch]
@[simp] theorem State.afterFetch_halted (s : State) : s.afterFetch.halted = s.halted := by
  simp [State.afterFetch]
@[simp] theorem State.afterFetch_nmiPending (s : State) : s.afterFetch.nmiPending = s.nmiPending := by
  simp [State.afterFetch]
@[simp] theorem State.afterFetch_params (s : State) : s.afterFetch.params = s.params := by
  simp [State.afterFetch]

theorem State.Inv.afterFetch {s : State} (h : s.Inv) : s.afterFetch.Inv :=
  ((h.touch _).touch _).touch _

/-- NMI entry as one record update. -/
theorem State.nmiEntry_eq (s : State) :
    s.nmiEntry =
      { s with
        cpu := { s.cpu with
          s := s.cpu.s - 3
          p := Machine.setFlag s.cpu.p .i true
          pc := ofHiLo (s.cart.prgRead 0xFFFB) (s.cart.prgRead 0xFFFA) }
        wram := ((s.wram.write (0x100 + s.cpu.s.toNat) (hiByte s.cpu.pc)).write
          (0x100 + (s.cpu.s - 1).toNat) (loByte s.cpu.pc)).write (0x100 + (s.cpu.s - 2).toNat)
          (pushedByNmi s.cpu.p) } :=
  State.interruptEntry_eq _ _ _ _ (by decide) (by decide)

@[simp] theorem State.finish_halted (s : State) (n : Nat) : (s.finish n).halted = s.halted := by
  unfold State.finish State.nmiCheck State.ppuBatch
  split
  · rw [State.nmiEntry_eq]
  · rfl

end Sys2Proof.Machine
end

