-- ==== Sys2Proof/Laws/Vblank.lean ====
section
/-! SUPPORT. Runs of dots: where the position goes, and at which dots an NMI request is reported. -/

namespace Sys2Proof.Machine

theorem Ppu.stepN_add (c : Cart) (u : Ppu) (m n : Nat) :
    u.stepN c (m + n) = (u.stepN c m).stepN c n := by
  induction m generalizing u with
  | zero => rw [Nat.zero_add]; rfl
  | succ m ih => rw [Nat.add_right_comm]; exact ih (u.tick c)

theorem Ppu.stepN_position {u : Ppu} (h : u.Inv) (c : Cart) (n : Nat) :
    (u.stepN c n).position = (u.position + n) % 89342 := by
  induction n generalizing u with
  | zero =>
    have := h.scanline
    have := h.dot
    have hp : u.position = 341 * u.scanline + u.dot := rfl
    show u.position = _
    omega
  | succ n ih =>
    have := ih (u := u.tick c) h.tick
    rw [Ppu.tick_position c u h.scanline h.dot] at this
    rw [show u.stepN c (n + 1) = (u.tick c).stepN c n from rfl, this]
    omega

/-- The guard is off at the dot of vblank entry, so PPUCTRL alone decides. -/
theorem Ppu.tickRequest_iff {u : Ppu} (h : u.Inv) :
    u.tickRequest = true ↔ u.position = 341 * 241 ∧ u.ctrl.getLsbD 7 = true := by
  have hs := h.scanline
  have hd := h.dot
  have hg := h.guard
  have hp : u.position = 341 * u.scanline + u.dot := rfl
  unfold Ppu.tickRequest Ppu.nmiRequest
  simp only [Bool.and_eq_true, decide_eq_true_eq, Bool.not_eq_true']
  constructor
  · rintro ⟨h1, h2, -⟩
    exact ⟨by omega, h2⟩
  · rintro ⟨h1, h2⟩
    refine ⟨by omega, h2, ?_⟩
    rw [← Bool.not_eq_true, hg]
    omega

theorem Ppu.stepN_ctrl (c : Cart) (u : Ppu) (n : Nat) : (u.stepN c n).ctrl = u.ctrl :=
  (Ppu.stepN_same c n u).ctrl

theorem Ppu.stepNRequest_exists (c : Cart) (u : Ppu) (n : Nat) :
    u.stepNRequest c n = true ↔ ∃ k < n, (u.stepN c k).tickRequest = true := by
  induction n generalizing u with
  | zero => simp [Ppu.stepNRequest]
  | succ n ih =>
    simp only [Ppu.stepNRequest, Bool.or_eq_true, ih]
    constructor
    · rintro (h | ⟨k, hk, h⟩)
      · exact ⟨0, by omega, h⟩
      · exact ⟨k + 1, by omega, h⟩
    · rintro ⟨k, hk, h⟩
      cases k with
      | zero => exact .inl h
      | succ k => exact .inr ⟨k, by omega, h⟩

/-- A batch reports a request exactly when PPUCTRL asks for one and the batch runs the dot at
(241, 0). -/
theorem Ppu.stepNRequest_iff {u : Ppu} (h : u.Inv) (c : Cart) (n : Nat) :
    u.stepNRequest c n = true ↔
      u.ctrl.getLsbD 7 = true ∧ ∃ k < n, (u.position + k) % 89342 = 341 * 241 := by
  rw [Ppu.stepNRequest_exists]
  constructor
  · rintro ⟨k, hk, hr⟩
    rw [Ppu.tickRequest_iff (h.stepN k), Ppu.stepN_position h, Ppu.stepN_ctrl] at hr
    exact ⟨hr.2, k, hk, hr.1⟩
  · rintro ⟨hc, k, hk, hr⟩
    refine ⟨k, hk, ?_⟩
    rw [Ppu.tickRequest_iff (h.stepN k), Ppu.stepN_position h, Ppu.stepN_ctrl]
    exact ⟨hr, hc⟩

end Sys2Proof.Machine
end

