-- ==== Sys2Proof/Tests/Slice0.lean ====
section
/-! SUPPORT. Tests. Decoding: every row of the opcode table as bytes written out from 30_encoding.md R78
and R76. Steps: vectors of 95_test_vectors.md, each one step (its registers are the spec's values,
never the model's). Witnesses: for every obligation with hypotheses, a state that meets them. -/

namespace Sys2Proof.Tests

open Sys2Proof.Machine Sys2Proof.Claims

/-! ### Well-formedness -/

/-- A machine whose `EXEC_SET` lacks the NOP. -/
def withoutNop : Params := { Params.default with unimplemented := [0xEA] }

theorem test_wellFormed_refuses_a_left_out_opcode : Instr.nop.wellFormed withoutNop = false := by decide
theorem test_wellFormed_accepts_the_rest : (Instr.ldaImm 0x05).wellFormed withoutNop = true := by decide

/-! ### Decoding -/

/-- The bytes decode to the instruction, as bytes and as one word, and the encoder gives them back. -/
abbrev Decodes (c : List Byte × Instr) : Prop :=
  decode3 (c.1.getD 0 0) (c.1.getD 1 0) (c.1.getD 2 0) = some c.2 ∧
  decodeTableWord (8 * c.1.length) (tableWord c.1) = some c.2 ∧ encode c.2 = c.1

theorem test_decode_load_1 :
    ∀ c ∈ ([([0xA9, 0x9A], .ldaImm 0x9A),
       ([0xA5, 0x9A], .ldaZp 0x9A),
       ([0xB5, 0x9A], .ldaZpx 0x9A),
       ([0xAD, 0x34, 0x12], .ldaAbs 0x1234),
       ([0xBD, 0x34, 0x12], .ldaAbsx 0x1234),
       ([0xB9, 0x34, 0x12], .ldaAbsy 0x1234),
       ([0xA1, 0x9A], .ldaIndx 0x9A),
       ([0xB1, 0x9A], .ldaIndy 0x9A),
       ([0xA2, 0x9A], .ldxImm 0x9A),
       ([0xA6, 0x9A], .ldxZp 0x9A),
       ([0xB6, 0x9A], .ldxZpy 0x9A),
       ([0xAE, 0x34, 0x12], .ldxAbs 0x1234)] :
      List (List Byte × Instr)), Decodes c := by decide

theorem test_decode_load_2 :
    ∀ c ∈ ([([0xBE, 0x34, 0x12], .ldxAbsy 0x1234),
       ([0xA0, 0x9A], .ldyImm 0x9A),
       ([0xA4, 0x9A], .ldyZp 0x9A),
       ([0xB4, 0x9A], .ldyZpx 0x9A),
       ([0xAC, 0x34, 0x12], .ldyAbs 0x1234),
       ([0xBC, 0x34, 0x12], .ldyAbsx 0x1234),
       ([0x85, 0x9A], .staZp 0x9A),
       ([0x95, 0x9A], .staZpx 0x9A),
       ([0x8D, 0x34, 0x12], .staAbs 0x1234),
       ([0x9D, 0x34, 0x12], .staAbsx 0x1234),
       ([0x99, 0x34, 0x12], .staAbsy 0x1234),
       ([0x81, 0x9A], .staIndx 0x9A)] :
      List (List Byte × Instr)), Decodes c := by decide

theorem test_decode_load_3 :
    ∀ c ∈ ([([0x91, 0x9A], .staIndy 0x9A),
       ([0x86, 0x9A], .stxZp 0x9A),
       ([0x96, 0x9A], .stxZpy 0x9A),
       ([0x8E, 0x34, 0x12], .stxAbs 0x1234),
       ([0x84, 0x9A], .styZp 0x9A),
       ([0x94, 0x9A], .styZpx 0x9A),
       ([0x8C, 0x34, 0x12], .styAbs 0x1234),
       ([0xAA], .tax),
       ([0xA8], .tay),
       ([0x8A], .txa),
       ([0x98], .tya),
       ([0xBA], .tsx)] :
      List (List Byte × Instr)), Decodes c := by decide

theorem test_decode_load_4 :
    ∀ c ∈ ([([0x9A], .txs)] :
      List (List Byte × Instr)), Decodes c := by decide

theorem test_decode_arith_1 :
    ∀ c ∈ ([([0x69, 0x9A], .adcImm 0x9A),
       ([0x65, 0x9A], .adcZp 0x9A),
       ([0x75, 0x9A], .adcZpx 0x9A),
       ([0x6D, 0x34, 0x12], .adcAbs 0x1234),
       ([0x7D, 0x34, 0x12], .adcAbsx 0x1234),
       ([0x79, 0x34, 0x12], .adcAbsy 0x1234),
       ([0x61, 0x9A], .adcIndx 0x9A),
       ([0x71, 0x9A], .adcIndy 0x9A),
       ([0xE9, 0x9A], .sbcImm 0x9A),
       ([0xE5, 0x9A], .sbcZp 0x9A),
       ([0xF5, 0x9A], .sbcZpx 0x9A),
       ([0xED, 0x34, 0x12], .sbcAbs 0x1234)] :
      List (List Byte × Instr)), Decodes c := by decide

theorem test_decode_arith_2 :
    ∀ c ∈ ([([0xFD, 0x34, 0x12], .sbcAbsx 0x1234),
       ([0xF9, 0x34, 0x12], .sbcAbsy 0x1234),
       ([0xE1, 0x9A], .sbcIndx 0x9A),
       ([0xF1, 0x9A], .sbcIndy 0x9A),
       ([0x29, 0x9A], .andImm 0x9A),
       ([0x25, 0x9A], .andZp 0x9A),
       ([0x35, 0x9A], .andZpx 0x9A),
       ([0x2D, 0x34, 0x12], .andAbs 0x1234),
       ([0x3D, 0x34, 0x12], .andAbsx 0x1234),
       ([0x39, 0x34, 0x12], .andAbsy 0x1234),
       ([0x21, 0x9A], .andIndx 0x9A),
       ([0x31, 0x9A], .andIndy 0x9A)] :
      List (List Byte × Instr)), Decodes c := by decide

theorem test_decode_arith_3 :
    ∀ c ∈ ([([0x09, 0x9A], .oraImm 0x9A),
       ([0x05, 0x9A], .oraZp 0x9A),
       ([0x15, 0x9A], .oraZpx 0x9A),
       ([0x0D, 0x34, 0x12], .oraAbs 0x1234),
       ([0x1D, 0x34, 0x12], .oraAbsx 0x1234),
       ([0x19, 0x34, 0x12], .oraAbsy 0x1234),
       ([0x01, 0x9A], .oraIndx 0x9A),
       ([0x11, 0x9A], .oraIndy 0x9A),
       ([0x49, 0x9A], .eorImm 0x9A),
       ([0x45, 0x9A], .eorZp 0x9A),
       ([0x55, 0x9A], .eorZpx 0x9A),
       ([0x4D, 0x34, 0x12], .eorAbs 0x1234)] :
      List (List Byte × Instr)), Decodes c := by decide

theorem test_decode_arith_4 :
    ∀ c ∈ ([([0x5D, 0x34, 0x12], .eorAbsx 0x1234),
       ([0x59, 0x34, 0x12], .eorAbsy 0x1234),
       ([0x41, 0x9A], .eorIndx 0x9A),
       ([0x51, 0x9A], .eorIndy 0x9A),
       ([0x24, 0x9A], .bitZp 0x9A),
       ([0x2C, 0x34, 0x12], .bitAbs 0x1234),
       ([0xC9, 0x9A], .cmpImm 0x9A),
       ([0xC5, 0x9A], .cmpZp 0x9A),
       ([0xD5, 0x9A], .cmpZpx 0x9A),
       ([0xCD, 0x34, 0x12], .cmpAbs 0x1234),
       ([0xDD, 0x34, 0x12], .cmpAbsx 0x1234),
       ([0xD9, 0x34, 0x12], .cmpAbsy 0x1234)] :
      List (List Byte × Instr)), Decodes c := by decide

theorem test_decode_arith_5 :
    ∀ c ∈ ([([0xC1, 0x9A], .cmpIndx 0x9A),
       ([0xD1, 0x9A], .cmpIndy 0x9A),
       ([0xE0, 0x9A], .cpxImm 0x9A),
       ([0xE4, 0x9A], .cpxZp 0x9A),
       ([0xEC, 0x34, 0x12], .cpxAbs 0x1234),
       ([0xC0, 0x9A], .cpyImm 0x9A),
       ([0xC4, 0x9A], .cpyZp 0x9A),
       ([0xCC, 0x34, 0x12], .cpyAbs 0x1234),
       ([0xE6, 0x9A], .incZp 0x9A),
       ([0xF6, 0x9A], .incZpx 0x9A),
       ([0xEE, 0x34, 0x12], .incAbs 0x1234),
       ([0xFE, 0x34, 0x12], .incAbsx 0x1234)] :
      List (List Byte × Instr)), Decodes c := by decide

theorem test_decode_arith_6 :
    ∀ c ∈ ([([0xC6, 0x9A], .decZp 0x9A),
       ([0xD6, 0x9A], .decZpx 0x9A),
       ([0xCE, 0x34, 0x12], .decAbs 0x1234),
       ([0xDE, 0x34, 0x12], .decAbsx 0x1234),
       ([0xE8], .inx),
       ([0xC8], .iny),
       ([0xCA], .dex),
       ([0x88], .dey)] :
      List (List Byte × Instr)), Decodes c := by decide

theorem test_decode_shift_1 :
    ∀ c ∈ ([([0x0A], .aslAcc),
       ([0x06, 0x9A], .aslZp 0x9A),
       ([0x16, 0x9A], .aslZpx 0x9A),
       ([0x0E, 0x34, 0x12], .aslAbs 0x1234),
       ([0x1E, 0x34, 0x12], .aslAbsx 0x1234),
       ([0x4A], .lsrAcc),
       ([0x46, 0x9A], .lsrZp 0x9A),
       ([0x56, 0x9A], .lsrZpx 0x9A),
       ([0x4E, 0x34, 0x12], .lsrAbs 0x1234),
       ([0x5E, 0x34, 0x12], .lsrAbsx 0x1234),
       ([0x2A], .rolAcc),
       ([0x26, 0x9A], .rolZp 0x9A)] :
      List (List Byte × Instr)), Decodes c := by decide

theorem test_decode_shift_2 :
    ∀ c ∈ ([([0x36, 0x9A], .rolZpx 0x9A),
       ([0x2E, 0x34, 0x12], .rolAbs 0x1234),
       ([0x3E, 0x34, 0x12], .rolAbsx 0x1234),
       ([0x6A], .rorAcc),
       ([0x66, 0x9A], .rorZp 0x9A),
       ([0x76, 0x9A], .rorZpx 0x9A),
       ([0x6E, 0x34, 0x12], .rorAbs 0x1234),
       ([0x7E, 0x34, 0x12], .rorAbsx 0x1234)] :
      List (List Byte × Instr)), Decodes c := by decide

theorem test_decode_control :
    ∀ c ∈ ([([0x90, 0x9A], .bcc 0x9A),
       ([0xB0, 0x9A], .bcs 0x9A),
       ([0xF0, 0x9A], .beq 0x9A),
       ([0x30, 0x9A], .bmi 0x9A),
       ([0xD0, 0x9A], .bne 0x9A),
       ([0x10, 0x9A], .bpl 0x9A),
       ([0x50, 0x9A], .bvc 0x9A),
       ([0x70, 0x9A], .bvs 0x9A),
       ([0x4C, 0x34, 0x12], .jmpAbs 0x1234),
       ([0x6C, 0x34, 0x12], .jmpInd 0x1234),
       ([0x20, 0x34, 0x12], .jsrAbs 0x1234),
       ([0x60], .rts)] :
      List (List Byte × Instr)), Decodes c := by decide

theorem test_decode_system_1 :
    ∀ c ∈ ([([0x48], .pha),
       ([0x08], .php),
       ([0x68], .pla),
       ([0x28], .plp),
       ([0x18], .clc),
       ([0xD8], .cld),
       ([0x58], .cli),
       ([0xB8], .clv),
       ([0x38], .sec),
       ([0xF8], .sed),
       ([0x78], .sei),
       ([0x00], .brk)] :
      List (List Byte × Instr)), Decodes c := by decide

theorem test_decode_system_2 :
    ∀ c ∈ ([([0x40], .rti),
       ([0xEA], .nop)] :
      List (List Byte × Instr)), Decodes c := by decide

theorem test_decode_unmapped : decode3 0x02 0x12 0x34 = none ∧ decodeTableWord 8 0x02 = none := by decide
theorem test_decode_operand_past_the_end_is_zero : decodeTableWord 8 0xA9 = some (.ldaImm 0x00) := by
  decide

/-! ### One step on a small state -/

/-- The cartridge of 95_test_vectors.md section 1: one PRG bank, NMI vector $9100, reset vector $8000,
BRK vector $9000. -/
def vectorCart : Cart :=
  { Cart.absent with
    present := true
    prgBanks := 1
    image := ⟨16400, [(4, 1), (0x400B, 0x91), (0x400D, 0x80), (0x400F, 0x90)]⟩ }

/-- A machine with these CPU registers and these cells of work RAM, everything else as in
95_test_vectors.md section 1. -/
def machine (cpu : Cpu) (ram : List Host.Cell) : State :=
  { State.reset with cpu := cpu, wram := Memory.ofCells 2048 ram, cart := vectorCart }

/-- The state after one step that runs the instruction with these bytes. -/
def ran (s : State) (code : List Byte) : State :=
  match step (s.placeInstr (code.getD 0 0) (code.getD 1 0) (code.getD 2 0)) with
  | .next t => t
  | .fault _ => s
  | .refused _ => s

theorem test_lda_L2 :
    let t := ran (machine ⟨0x00, 0x00, 0x00, 0xFD, 0x0200, 0x24⟩ []) [0xA9, 0x80]
    t.cpu = ⟨0x80, 0x00, 0x00, 0xFD, 0x0202, 0xA4⟩ := by decide

theorem test_lda_L3 :
    let t := ran (machine ⟨0x00, 0xF5, 0x00, 0xFD, 0x0200, 0x24⟩ [(0x005, 0x77)]) [0xB5, 0x10]
    t.cpu = ⟨0x77, 0xF5, 0x00, 0xFD, 0x0202, 0x24⟩ := by decide

theorem test_lda_L4 :
    let t := ran (machine ⟨0x00, 0x00, 0x00, 0xFD, 0x0200, 0x24⟩ [(0x000, 0x42)]) [0xAD, 0x00, 0x08]
    t.cpu = ⟨0x42, 0x00, 0x00, 0xFD, 0x0203, 0x24⟩ := by decide

theorem test_ldx_L5 :
    let t := ran (machine ⟨0x00, 0x00, 0xF5, 0xFD, 0x0200, 0x24⟩ [(0x005, 0x99)]) [0xB6, 0x10]
    t.cpu = ⟨0x00, 0x99, 0xF5, 0xFD, 0x0202, 0xA4⟩ := by decide

theorem test_ldy_L6 :
    let t := ran (machine ⟨0x00, 0x00, 0x33, 0xFD, 0x0200, 0x24⟩ []) [0xA0, 0x00]
    t.cpu = ⟨0x00, 0x00, 0x00, 0xFD, 0x0202, 0x26⟩ := by decide

theorem test_sta_L7 :
    let t := ran (machine ⟨0xAB, 0x00, 0x00, 0xFD, 0x0200, 0x26⟩ []) [0x85, 0x12]
    t.cpu = ⟨0xAB, 0x00, 0x00, 0xFD, 0x0202, 0x26⟩ ∧ t.wram.read 0x012 = 0xAB := by decide

theorem test_sta_L8 :
    let t := ran (machine ⟨0x5C, 0x00, 0x00, 0xFD, 0x0200, 0x24⟩ []) [0x8D, 0xFF, 0x1F]
    t.cpu = ⟨0x5C, 0x00, 0x00, 0xFD, 0x0203, 0x24⟩ ∧ t.wram.read 0x7FF = 0x5C := by decide

theorem test_stx_L9 :
    let t := ran (machine ⟨0x00, 0x3C, 0x02, 0xFD, 0x0200, 0x24⟩ []) [0x96, 0xFF]
    t.cpu = ⟨0x00, 0x3C, 0x02, 0xFD, 0x0202, 0x24⟩ ∧ t.wram.read 0x001 = 0x3C := by decide

theorem test_sty_L10 :
    let t := ran (machine ⟨0x00, 0x81, 0x4D, 0xFD, 0x0200, 0x24⟩ []) [0x94, 0x7F]
    t.cpu = ⟨0x00, 0x81, 0x4D, 0xFD, 0x0202, 0x24⟩ ∧ t.wram.read 0x000 = 0x4D := by decide

theorem test_tax_L12 :
    let t := ran (machine ⟨0x00, 0x55, 0x00, 0xFD, 0x0200, 0x24⟩ []) [0xAA]
    t.cpu = ⟨0x00, 0x00, 0x00, 0xFD, 0x0201, 0x26⟩ := by decide

theorem test_tay_L13 :
    let t := ran (machine ⟨0xF0, 0x00, 0x00, 0xFD, 0x0200, 0x24⟩ []) [0xA8]
    t.cpu = ⟨0xF0, 0x00, 0xF0, 0xFD, 0x0201, 0xA4⟩ := by decide

theorem test_txa_L14 :
    let t := ran (machine ⟨0x01, 0x80, 0x00, 0xFD, 0x0200, 0x24⟩ []) [0x8A]
    t.cpu = ⟨0x80, 0x80, 0x00, 0xFD, 0x0201, 0xA4⟩ := by decide

theorem test_tya_L15 :
    let t := ran (machine ⟨0x01, 0x00, 0x00, 0xFD, 0x0200, 0x24⟩ []) [0x98]
    t.cpu = ⟨0x00, 0x00, 0x00, 0xFD, 0x0201, 0x26⟩ := by decide

theorem test_tsx_L16 :
    let t := ran (machine ⟨0x00, 0x55, 0x00, 0x00, 0x0200, 0x24⟩ []) [0xBA]
    t.cpu = ⟨0x00, 0x00, 0x00, 0x00, 0x0201, 0x26⟩ := by decide

theorem test_txs_L17 :
    let t := ran (machine ⟨0x00, 0x00, 0x00, 0xFD, 0x0200, 0x24⟩ []) [0x9A]
    t.cpu = ⟨0x00, 0x00, 0x00, 0x00, 0x0201, 0x24⟩ := by decide

theorem test_adc_A2 :
    let t := ran (machine ⟨0x50, 0x00, 0x00, 0xFD, 0x0200, 0x24⟩ []) [0x69, 0x50]
    t.cpu = ⟨0xA0, 0x00, 0x00, 0xFD, 0x0202, 0xE4⟩ := by decide

theorem test_adc_A7 :
    let t := ran (machine ⟨0xFF, 0x00, 0x00, 0xFD, 0x0200, 0x25⟩ []) [0x69, 0xFF]
    t.cpu = ⟨0xFF, 0x00, 0x00, 0xFD, 0x0202, 0xA5⟩ := by decide

theorem test_sbc_A11 :
    let t := ran (machine ⟨0x00, 0x00, 0x00, 0xFD, 0x0200, 0x25⟩ []) [0xE9, 0x01]
    t.cpu = ⟨0xFF, 0x00, 0x00, 0xFD, 0x0202, 0xA4⟩ := by decide

theorem test_sbc_A12 :
    let t := ran (machine ⟨0x80, 0x00, 0x00, 0xFD, 0x0200, 0x25⟩ []) [0xE9, 0x01]
    t.cpu = ⟨0x7F, 0x00, 0x00, 0xFD, 0x0202, 0x65⟩ := by decide

theorem test_and_A15 :
    let t := ran (machine ⟨0xF0, 0x00, 0x00, 0xFD, 0x0200, 0x24⟩ []) [0x29, 0x0F]
    t.cpu = ⟨0x00, 0x00, 0x00, 0xFD, 0x0202, 0x26⟩ := by decide

theorem test_ora_A16 :
    let t := ran (machine ⟨0x01, 0x00, 0x00, 0xFD, 0x0200, 0x24⟩ []) [0x09, 0x80]
    t.cpu = ⟨0x81, 0x00, 0x00, 0xFD, 0x0202, 0xA4⟩ := by decide

theorem test_eor_A17 :
    let t := ran (machine ⟨0xFF, 0x00, 0x00, 0xFD, 0x0200, 0x24⟩ []) [0x49, 0xFF]
    t.cpu = ⟨0x00, 0x00, 0x00, 0xFD, 0x0202, 0x26⟩ := by decide

theorem test_bit_A18 :
    let t := ran (machine ⟨0x3F, 0x00, 0x00, 0xFD, 0x0200, 0x24⟩ [(0x010, 0xC0)]) [0x24, 0x10]
    t.cpu = ⟨0x3F, 0x00, 0x00, 0xFD, 0x0202, 0xE6⟩ := by decide

theorem test_bit_A19 :
    let t := ran (machine ⟨0x01, 0x00, 0x00, 0xFD, 0x0200, 0xE4⟩ [(0x010, 0x01)]) [0x24, 0x10]
    t.cpu = ⟨0x01, 0x00, 0x00, 0xFD, 0x0202, 0x24⟩ := by decide

theorem test_cmp_A21 :
    let t := ran (machine ⟨0x40, 0x00, 0x00, 0xFD, 0x0200, 0x24⟩ []) [0xC9, 0x41]
    t.cpu = ⟨0x40, 0x00, 0x00, 0xFD, 0x0202, 0xA4⟩ := by decide

theorem test_cmp_A22 :
    let t := ran (machine ⟨0x41, 0x00, 0x00, 0xFD, 0x0200, 0x24⟩ []) [0xC9, 0x40]
    t.cpu = ⟨0x41, 0x00, 0x00, 0xFD, 0x0202, 0x25⟩ := by decide

theorem test_cpx_A24 :
    let t := ran (machine ⟨0x00, 0x20, 0x00, 0xFD, 0x0200, 0x24⟩ []) [0xE0, 0x10]
    t.cpu = ⟨0x00, 0x20, 0x00, 0xFD, 0x0202, 0x25⟩ := by decide

theorem test_cpy_A25 :
    let t := ran (machine ⟨0x00, 0x00, 0x00, 0xFD, 0x0200, 0x24⟩ []) [0xC0, 0xFF]
    t.cpu = ⟨0x00, 0x00, 0x00, 0xFD, 0x0202, 0x24⟩ := by decide

theorem test_inc_A26 :
    let t := ran (machine ⟨0x00, 0x00, 0x00, 0xFD, 0x0200, 0x24⟩ [(0x010, 0xFF)]) [0xE6, 0x10]
    t.cpu = ⟨0x00, 0x00, 0x00, 0xFD, 0x0202, 0x26⟩ ∧ t.wram.read 0x010 = 0x00 := by decide

theorem test_dec_A27 :
    let t := ran (machine ⟨0x00, 0x00, 0x00, 0xFD, 0x0200, 0x24⟩ [(0x010, 0x00)]) [0xC6, 0x10]
    t.cpu = ⟨0x00, 0x00, 0x00, 0xFD, 0x0202, 0xA4⟩ ∧ t.wram.read 0x010 = 0xFF := by decide

theorem test_inc_A28 :
    let t := ran (machine ⟨0x00, 0x01, 0x00, 0xFD, 0x0200, 0x24⟩ [(0x011, 0x7F)]) [0xF6, 0x10]
    t.cpu = ⟨0x00, 0x01, 0x00, 0xFD, 0x0202, 0xA4⟩ ∧ t.wram.read 0x011 = 0x80 := by decide

theorem test_inx_A29 :
    let t := ran (machine ⟨0x00, 0xFF, 0x00, 0xFD, 0x0200, 0x24⟩ []) [0xE8]
    t.cpu = ⟨0x00, 0x00, 0x00, 0xFD, 0x0201, 0x26⟩ := by decide

theorem test_iny_A30 :
    let t := ran (machine ⟨0x00, 0x00, 0x7F, 0xFD, 0x0200, 0x24⟩ []) [0xC8]
    t.cpu = ⟨0x00, 0x00, 0x80, 0xFD, 0x0201, 0xA4⟩ := by decide

theorem test_dex_A31 :
    let t := ran (machine ⟨0x00, 0x00, 0x00, 0xFD, 0x0200, 0x24⟩ []) [0xCA]
    t.cpu = ⟨0x00, 0xFF, 0x00, 0xFD, 0x0201, 0xA4⟩ := by decide

theorem test_dey_A32 :
    let t := ran (machine ⟨0x00, 0x00, 0x01, 0xFD, 0x0200, 0x24⟩ []) [0x88]
    t.cpu = ⟨0x00, 0x00, 0x00, 0xFD, 0x0201, 0x26⟩ := by decide

theorem test_asl_S1 :
    let t := ran (machine ⟨0x80, 0x00, 0x00, 0xFD, 0x0200, 0x24⟩ []) [0x0A]
    t.cpu = ⟨0x00, 0x00, 0x00, 0xFD, 0x0201, 0x27⟩ := by decide

theorem test_asl_S2 :
    let t := ran (machine ⟨0x41, 0x00, 0x00, 0xFD, 0x0200, 0x24⟩ []) [0x0A]
    t.cpu = ⟨0x82, 0x00, 0x00, 0xFD, 0x0201, 0xA4⟩ := by decide

theorem test_lsr_S3 :
    let t := ran (machine ⟨0x01, 0x00, 0x00, 0xFD, 0x0200, 0x24⟩ []) [0x4A]
    t.cpu = ⟨0x00, 0x00, 0x00, 0xFD, 0x0201, 0x27⟩ := by decide

theorem test_lsr_S4 :
    let t := ran (machine ⟨0x00, 0x00, 0x00, 0xFD, 0x0200, 0x24⟩ [(0x010, 0xFF)]) [0x46, 0x10]
    t.cpu = ⟨0x00, 0x00, 0x00, 0xFD, 0x0202, 0x25⟩ ∧ t.wram.read 0x010 = 0x7F := by decide

theorem test_rol_S5 :
    let t := ran (machine ⟨0x80, 0x00, 0x00, 0xFD, 0x0200, 0x24⟩ []) [0x2A]
    t.cpu = ⟨0x00, 0x00, 0x00, 0xFD, 0x0201, 0x27⟩ := by decide

theorem test_rol_S6 :
    let t := ran (machine ⟨0x00, 0x00, 0x00, 0xFD, 0x0200, 0x25⟩ []) [0x2A]
    t.cpu = ⟨0x01, 0x00, 0x00, 0xFD, 0x0201, 0x24⟩ := by decide

theorem test_ror_S7 :
    let t := ran (machine ⟨0x01, 0x00, 0x00, 0xFD, 0x0200, 0x24⟩ []) [0x6A]
    t.cpu = ⟨0x00, 0x00, 0x00, 0xFD, 0x0201, 0x27⟩ := by decide

theorem test_ror_S8 :
    let t := ran (machine ⟨0x00, 0x00, 0x00, 0xFD, 0x0200, 0x25⟩ []) [0x6A]
    t.cpu = ⟨0x80, 0x00, 0x00, 0xFD, 0x0201, 0xA4⟩ := by decide

theorem test_ror_S9 :
    let t := ran (machine ⟨0x00, 0x02, 0x00, 0xFD, 0x0200, 0x25⟩ [(0x012, 0x02)]) [0x76, 0x10]
    t.cpu = ⟨0x00, 0x02, 0x00, 0xFD, 0x0202, 0xA4⟩ ∧ t.wram.read 0x012 = 0x81 := by decide

theorem test_asl_S10 :
    let t := ran (machine ⟨0x00, 0x00, 0x00, 0xFD, 0x0200, 0x24⟩ [(0x010, 0x40)]) [0x0E, 0x10, 0x00]
    t.cpu = ⟨0x00, 0x00, 0x00, 0xFD, 0x0203, 0xA4⟩ ∧ t.wram.read 0x010 = 0x80 := by decide

theorem test_beq_B1 :
    let t := ran (machine ⟨0x00, 0x00, 0x00, 0xFD, 0x0200, 0x26⟩ []) [0xF0, 0x02]
    t.cpu = ⟨0x00, 0x00, 0x00, 0xFD, 0x0204, 0x26⟩ := by decide

theorem test_beq_B2 :
    let t := ran (machine ⟨0x00, 0x00, 0x00, 0xFD, 0x0200, 0x24⟩ []) [0xF0, 0x02]
    t.cpu = ⟨0x00, 0x00, 0x00, 0xFD, 0x0202, 0x24⟩ := by decide

theorem test_bne_B3 :
    let t := ran (machine ⟨0x00, 0x00, 0x00, 0xFD, 0x0200, 0x24⟩ []) [0xD0, 0xFE]
    t.cpu = ⟨0x00, 0x00, 0x00, 0xFD, 0x0200, 0x24⟩ := by decide

theorem test_bmi_B4 :
    let t := ran (machine ⟨0x00, 0x00, 0x00, 0xFD, 0x0200, 0xA4⟩ []) [0x30, 0x80]
    t.cpu = ⟨0x00, 0x00, 0x00, 0xFD, 0x0182, 0xA4⟩ := by decide

theorem test_bpl_B5 :
    let t := ran (machine ⟨0x00, 0x00, 0x00, 0xFD, 0x0200, 0x24⟩ []) [0x10, 0x7F]
    t.cpu = ⟨0x00, 0x00, 0x00, 0xFD, 0x0281, 0x24⟩ := by decide

theorem test_bcc_B6 :
    let t := ran (machine ⟨0x00, 0x00, 0x00, 0xFD, 0x02FD, 0x24⟩ []) [0x90, 0x10]
    t.cpu = ⟨0x00, 0x00, 0x00, 0xFD, 0x030F, 0x24⟩ := by decide

theorem test_bcs_B7 :
    let t := ran (machine ⟨0x00, 0x00, 0x00, 0xFD, 0x0200, 0x25⟩ []) [0xB0, 0x04]
    t.cpu = ⟨0x00, 0x00, 0x00, 0xFD, 0x0206, 0x25⟩ := by decide

theorem test_bvc_B8 :
    let t := ran (machine ⟨0x00, 0x00, 0x00, 0xFD, 0x0200, 0x24⟩ []) [0x50, 0x04]
    t.cpu = ⟨0x00, 0x00, 0x00, 0xFD, 0x0206, 0x24⟩ := by decide

theorem test_bvs_B9 :
    let t := ran (machine ⟨0x00, 0x00, 0x00, 0xFD, 0x0200, 0x64⟩ []) [0x70, 0x04]
    t.cpu = ⟨0x00, 0x00, 0x00, 0xFD, 0x0206, 0x64⟩ := by decide

theorem test_jmp_B11 :
    let t := ran (machine ⟨0x00, 0x00, 0x00, 0xFD, 0x0200, 0x24⟩ []) [0x4C, 0x34, 0x12]
    t.cpu = ⟨0x00, 0x00, 0x00, 0xFD, 0x1234, 0x24⟩ := by decide

theorem test_jmp_B12 :
    let t := ran (machine ⟨0x00, 0x00, 0x00, 0xFD, 0x0400, 0x24⟩ [(0x2FF, 0x34), (0x200, 0x12), (0x300, 0x56)])
      [0x6C, 0xFF, 0x02]
    t.cpu = ⟨0x00, 0x00, 0x00, 0xFD, 0x1234, 0x24⟩ := by decide

theorem test_jsr_B14 :
    let t := ran (machine ⟨0x00, 0x00, 0x00, 0xFD, 0x0200, 0x24⟩ []) [0x20, 0x34, 0x12]
    t.cpu = ⟨0x00, 0x00, 0x00, 0xFB, 0x1234, 0x24⟩ ∧
    t.wram.read 0x1FC = 0x02 ∧ t.wram.read 0x1FD = 0x02 := by decide

theorem test_rts_B15 :
    let t := ran (machine ⟨0x00, 0x00, 0x00, 0xFB, 0x0200, 0x24⟩ [(0x1FC, 0x02), (0x1FD, 0x02)])
      [0x60]
    t.cpu = ⟨0x00, 0x00, 0x00, 0xFD, 0x0203, 0x24⟩ := by decide

theorem test_jsr_B16 :
    let t := ran (machine ⟨0x00, 0x00, 0x00, 0x00, 0x0200, 0x24⟩ []) [0x20, 0x34, 0x12]
    t.cpu = ⟨0x00, 0x00, 0x00, 0xFE, 0x1234, 0x24⟩ ∧
    t.wram.read 0x100 = 0x02 ∧ t.wram.read 0x1FF = 0x02 := by decide

theorem test_pha_K1 :
    let t := ran (machine ⟨0x5A, 0x00, 0x00, 0xFD, 0x0200, 0x24⟩ []) [0x48]
    t.cpu = ⟨0x5A, 0x00, 0x00, 0xFC, 0x0201, 0x24⟩ ∧ t.wram.read 0x1FD = 0x5A := by decide

theorem test_pla_K2 :
    let t := ran (machine ⟨0x11, 0x00, 0x00, 0xFC, 0x0200, 0x24⟩ []) [0x68]
    t.cpu = ⟨0x00, 0x00, 0x00, 0xFD, 0x0201, 0x26⟩ := by decide

theorem test_pla_K3 :
    let t := ran (machine ⟨0x00, 0x00, 0x00, 0xFF, 0x0200, 0x24⟩ [(0x100, 0x80)]) [0x68]
    t.cpu = ⟨0x80, 0x00, 0x00, 0x00, 0x0201, 0xA4⟩ := by decide

theorem test_php_K4 :
    let t := ran (machine ⟨0x00, 0x00, 0x00, 0xFD, 0x0200, 0x00⟩ []) [0x08]
    t.cpu = ⟨0x00, 0x00, 0x00, 0xFC, 0x0201, 0x00⟩ ∧ t.wram.read 0x1FD = 0x30 := by decide

theorem test_php_K5 :
    let t := ran (machine ⟨0x00, 0x00, 0x00, 0xFD, 0x0200, 0xC3⟩ []) [0x08]
    t.cpu = ⟨0x00, 0x00, 0x00, 0xFC, 0x0201, 0xC3⟩ ∧ t.wram.read 0x1FD = 0xF3 := by decide

theorem test_plp_K6 :
    let t := ran (machine ⟨0x00, 0x00, 0x00, 0xFD, 0x0200, 0x24⟩ [(0x1FE, 0xFF)]) [0x28]
    t.cpu = ⟨0x00, 0x00, 0x00, 0xFE, 0x0201, 0xFF⟩ := by decide

theorem test_plp_K7 :
    let t := ran (machine ⟨0x00, 0x00, 0x00, 0xFD, 0x0200, 0x24⟩ [(0x1FE, 0x00)]) [0x28]
    t.cpu = ⟨0x00, 0x00, 0x00, 0xFE, 0x0201, 0x00⟩ := by decide

theorem test_clc_K8 :
    let t := ran (machine ⟨0x00, 0x00, 0x00, 0xFD, 0x0200, 0x25⟩ []) [0x18]
    t.cpu = ⟨0x00, 0x00, 0x00, 0xFD, 0x0201, 0x24⟩ := by decide

theorem test_sec_K9 :
    let t := ran (machine ⟨0x00, 0x00, 0x00, 0xFD, 0x0200, 0x24⟩ []) [0x38]
    t.cpu = ⟨0x00, 0x00, 0x00, 0xFD, 0x0201, 0x25⟩ := by decide

theorem test_cli_K10 :
    let t := ran (machine ⟨0x00, 0x00, 0x00, 0xFD, 0x0200, 0x24⟩ []) [0x58]
    t.cpu = ⟨0x00, 0x00, 0x00, 0xFD, 0x0201, 0x20⟩ := by decide

theorem test_sei_K11 :
    let t := ran (machine ⟨0x00, 0x00, 0x00, 0xFD, 0x0200, 0x20⟩ []) [0x78]
    t.cpu = ⟨0x00, 0x00, 0x00, 0xFD, 0x0201, 0x24⟩ := by decide

theorem test_cld_K12 :
    let t := ran (machine ⟨0x00, 0x00, 0x00, 0xFD, 0x0200, 0x2C⟩ []) [0xD8]
    t.cpu = ⟨0x00, 0x00, 0x00, 0xFD, 0x0201, 0x24⟩ := by decide

theorem test_sed_K13 :
    let t := ran (machine ⟨0x00, 0x00, 0x00, 0xFD, 0x0200, 0x24⟩ []) [0xF8]
    t.cpu = ⟨0x00, 0x00, 0x00, 0xFD, 0x0201, 0x2C⟩ := by decide

theorem test_clv_K14 :
    let t := ran (machine ⟨0x00, 0x00, 0x00, 0xFD, 0x0200, 0x64⟩ []) [0xB8]
    t.cpu = ⟨0x00, 0x00, 0x00, 0xFD, 0x0201, 0x24⟩ := by decide

theorem test_nop_K15 :
    let t := ran (machine ⟨0x00, 0x00, 0x00, 0xFD, 0x0200, 0x24⟩ []) [0xEA]
    t.cpu = ⟨0x00, 0x00, 0x00, 0xFD, 0x0201, 0x24⟩ := by decide

theorem test_brk_K16 :
    let t := ran (machine ⟨0x00, 0x00, 0x00, 0xFD, 0x0200, 0x24⟩ []) [0x00]
    t.cpu = ⟨0x00, 0x00, 0x00, 0xFA, 0x9000, 0x24⟩ ∧
    t.wram.read 0x1FB = 0x34 ∧ t.wram.read 0x1FC = 0x02 ∧ t.wram.read 0x1FD = 0x02 := by decide

theorem test_brk_K17 :
    let t := ran (machine ⟨0x00, 0x00, 0x00, 0xFD, 0x0200, 0xA1⟩ []) [0x00]
    t.cpu = ⟨0x00, 0x00, 0x00, 0xFA, 0x9000, 0xA5⟩ ∧
    t.wram.read 0x1FB = 0xB1 ∧ t.wram.read 0x1FC = 0x02 ∧ t.wram.read 0x1FD = 0x02 := by decide

theorem test_rti_K18 :
    let t := ran (machine ⟨0x00, 0x00, 0x00, 0xFA, 0x0200, 0x24⟩ [(0x1FB, 0xC3), (0x1FC, 0x02), (0x1FD, 0x02)])
      [0x40]
    t.cpu = ⟨0x00, 0x00, 0x00, 0xFD, 0x0202, 0xC3⟩ := by decide

theorem test_lda_D1 :
    let t := ran (machine ⟨0x00, 0x01, 0x00, 0xFD, 0x0200, 0x24⟩ [(0x0FF, 0x34), (0x000, 0x03), (0x334, 0x77)])
      [0xA1, 0xFE]
    t.cpu = ⟨0x77, 0x01, 0x00, 0xFD, 0x0202, 0x24⟩ := by decide

theorem test_lda_D2 :
    let t := ran (machine ⟨0x00, 0x02, 0x00, 0xFD, 0x0200, 0x24⟩ [(0x000, 0x10), (0x001, 0x03), (0x310, 0x5E)])
      [0xA1, 0xFE]
    t.cpu = ⟨0x5E, 0x02, 0x00, 0xFD, 0x0202, 0x24⟩ := by decide

theorem test_lda_D3 :
    let t := ran (machine ⟨0x00, 0x00, 0x10, 0xFD, 0x0200, 0x24⟩ [(0x0FF, 0xF8), (0x000, 0x02), (0x308, 0x66)])
      [0xB1, 0xFF]
    t.cpu = ⟨0x66, 0x00, 0x10, 0xFD, 0x0202, 0x24⟩ := by decide

theorem test_lda_D4 :
    let t := ran (machine ⟨0x00, 0x00, 0x01, 0xFD, 0x0200, 0x24⟩ [(0x010, 0xFF), (0x011, 0xFF), (0x000, 0x99)])
      [0xB1, 0x10]
    t.cpu = ⟨0x99, 0x00, 0x01, 0xFD, 0x0202, 0xA4⟩ := by decide

theorem test_lda_D5 :
    let t := ran (machine ⟨0x00, 0x01, 0x00, 0xFD, 0x0200, 0x24⟩ [(0x000, 0xAA)]) [0xBD, 0xFF, 0xFF]
    t.cpu = ⟨0xAA, 0x01, 0x00, 0xFD, 0x0203, 0xA4⟩ := by decide

theorem test_lda_D6 :
    let t := ran (machine ⟨0x00, 0x00, 0x01, 0xFD, 0x0200, 0x24⟩ [(0x000, 0xBB)]) [0xB9, 0xFF, 0x07]
    t.cpu = ⟨0xBB, 0x00, 0x01, 0xFD, 0x0203, 0xA4⟩ := by decide

theorem test_sta_D7 :
    let t := ran (machine ⟨0xCC, 0x01, 0x00, 0xFD, 0x0200, 0x24⟩ []) [0x9D, 0xFF, 0x00]
    t.cpu = ⟨0xCC, 0x01, 0x00, 0xFD, 0x0203, 0x24⟩ ∧ t.wram.read 0x100 = 0xCC := by decide

theorem test_sta_D8 :
    let t := ran (machine ⟨0xCD, 0x01, 0x00, 0xFD, 0x0200, 0x24⟩ []) [0x95, 0xFF]
    t.cpu = ⟨0xCD, 0x01, 0x00, 0xFD, 0x0202, 0x24⟩ ∧ t.wram.read 0x000 = 0xCD := by decide

/-! ### Assembler text -/

/-- The examples of 30_encoding.md R85. -/
theorem test_text_of_the_examples :
    Instr.clc.text 0 = "CLC" ∧ Instr.aslAcc.text 0 = "ASL A" ∧
      (Instr.ldaImm 0x05).text 0 = "LDA #$05" ∧ (Instr.staZp 0x10).text 0 = "STA $10" ∧
      (Instr.staAbs 0x0010).text 0 = "STA $0010" ∧ (Instr.ldaAbsy 0x0200).text 0 = "LDA $0200,Y" ∧
      (Instr.jmpInd 0xFFFC).text 0 = "JMP ($FFFC)" ∧ (Instr.ldaIndx 0x20).text 0 = "LDA ($20,X)" ∧
      (Instr.ldaIndy 0x20).text 0 = "LDA ($20),Y" ∧ (Instr.bne 0xFE).text 0x8005 = "BNE $8005" := by
  decide

theorem test_branch_displacement :
    relByte 0x8005 0x8005 = some 0xFE ∧ relByte 0x8000 0x8081 = some 0x7F ∧
      relByte 0x8000 0x8082 = none := by decide

/-! ### The machine around an instruction -/

/-- Vector H1: the halt keeps PC at pc0, and no later step runs. -/
theorem test_unmapped_opcode_halts_H1 :
    let t := ran (machine ⟨0, 0, 0, 0xFD, 0x0200, 0x24⟩ []) [0x02]
    t.halted = true ∧ t.stopSignal = some (.invalidOpcode 0x02 0x0200) ∧ t.cpu.pc = 0x0200 := by decide

theorem test_halted_core_does_not_step_H1 :
    step { State.reset with halted := true } = .fault .coreHalted := rfl

/-- Vector H2, with `EXEC_SET` lacking the NOP. -/
theorem test_left_out_opcode_halts_H2 :
    let t := ran { machine ⟨0, 0, 0, 0xFD, 0x0200, 0x24⟩ [] with params := withoutNop } [0xEA]
    t.halted = true ∧ t.stopSignal = some (.unimplemented 0xEA 0x0200) := by decide

/-- A machine whose next NOP runs the dot at (241, 0), with NMI enabled (60_exceptions.md R168, R169,
R173). -/
def beforeVblank : State :=
  { machine ⟨0, 0, 0, 0xFD, 0x0200, 0x24⟩ [] with
    ppu := { Ppu.reset with
      ctrl := 0x80, latch := ⟨0x80, 0, 0, 0, 0⟩, scanline := 240, dot := 338 } }

theorem test_nmi_is_entered_after_the_instruction :
    let t := ran beforeVblank [0xEA]
    t.cpu = ⟨0, 0, 0, 0xFA, 0x9100, 0x24⟩ ∧ t.wram.read 0x1FD = 0x02 ∧ t.wram.read 0x1FC = 0x01 ∧
      t.wram.read 0x1FB = 0x24 ∧ t.nmiPending = false ∧ t.ppu.vbl = true ∧ t.ppu.scanline = 241 ∧
      t.ppu.dot = 24 := by decide

/-- Vector V2: PPUCTRL bit 7 written after vblank entry. -/
theorem test_no_request_inside_vblank_V2 :
    let u := ({ Ppu.reset with scanline := 241 } : Ppu).tick vectorCart
    (u.portWrite vectorCart .ctrl 0x80).stepNRequest vectorCart 8 = false := by decide

/-- Vector M5, and the default machine. -/
theorem test_power_up_without_a_cartridge_M5 : powerUp PowerUpInput.blank = State.reset := by decide

/-- Vector M7: the PRG data starts after the trainer. -/
theorem test_trainer_M7 :
    (insertCartridge (some ⟨16912, [(4, 1), (6, 4), (528, 0x99)]⟩) [] []).prgRead 0x8000 = 0x99 := by
  decide

/-- Vector Q1. -/
theorem test_status_read_Q1 :
    let s := { State.reset with ppu := { Ppu.reset with
      vbl := true, s0 := true, lastWrite := 0x1F, scrollLatch := true, addrLatch := true } }
    s.peek 0x2002 = 0xDF ∧ (s.touch 0x2002).ppu = { s.ppu with
      vbl := false, scrollLatch := false, addrLatch := false } := by decide

/-- Vector Q3. -/
theorem test_address_port_Q3 :
    let s := State.reset.memWrite 0x2006 0x21
    s.ppu.vaddr = 0 ∧ s.ppu.addrLatch = true ∧ (s.memWrite 0x2006 0x08).ppu.vaddr = 0x2108 := by decide

/-- Vector Q7: the first of two buffered reads. -/
theorem test_buffered_read_Q7 :
    let s := { State.reset with
      params := { Params.default with ppuDataMode := .buffered }
      ppu := { Ppu.reset with ciram := [(5, 0x5D), (6, 0x6E)], vaddr := 0x2005 } }
    s.peek 0x2007 = 0x00 ∧ (s.touch 0x2007).peek 0x2007 = 0x5D := by decide

/-- Vector Q8. -/
theorem test_backdrop_mirror_Q8 :
    let s := { State.reset with ppu := { Ppu.reset with vaddr := 0x3F10 } }.memWrite 0x2007 0x0F
    s.ppu.palBd = 0x0F ∧ s.ppu.read s.cart 0x3F00 = 0x0F := by decide

/-- Vector Q10, vertical mirroring. -/
theorem test_mirroring_Q10 :
    let c := { Cart.absent with mirrorFlag := true }
    (Ppu.writeOwn c Ppu.reset 0x2800 0x12).read c 0x2000 = 0x12 := by decide

/-- Vector Q12. -/
theorem test_scroll_port_Q12 :
    let s := (State.reset.memWrite 0x2005 0x7D).memWrite 0x2005 0xF5
    s.ppu.scrollX = 0x7D ∧ s.ppu.scrollY = 0x05 ∧ s.ppu.scrollLatch = false := by decide

/-- Vector Q15, the first reads after the strobe. -/
theorem test_controller_Q15 :
    let s := { State.reset with ctrl := ⟨false, 0, { Buttons.released with a := true, start := true }⟩ }
    let t := (s.memWrite 0x4016 1).memWrite 0x4016 0
    t.peek 0x4016 = 1 ∧ (readTimes 0x4016 1 t).peek 0x4016 = 0 ∧
      (readTimes 0x4016 3 t).peek 0x4016 = 1 ∧ (readTimes 0x4016 8 t).peek 0x4016 = 1 := by decide

/-- Vector R1: the eight pixels of tile column 5 on line 11. -/
theorem test_background_R1 :
    let c := { vectorCart with chrRam := [(0x1023, 0xA0), (0x102B, 0xC0)] }
    let u : Ppu := { Ppu.reset with
      ctrl := 0x10, mask := 0x08, ciram := [(37, 2), (0x3C1, 0x0C)], palBd := 0x0F
      pal := [(1, 1), (2, 2), (3, 3)] }
    let v := [42, 44, 46, 48].foldl (fun v d => v.bgFetchStep c 11 d) u
    [40, 41, 42, 43, 47].map (v.fbAt 11) = [3, 2, 1, 15, 15] := by decide

/-- Vector R5, the ninth and the last selected sprite: sprite 17 (OAM index 17 at line 30) takes slot 7,
sprite 19 finds the slots full and sets OVF. -/
theorem test_sprite_cap_R5 :
    let u : Ppu := { Ppu.reset with mask := 0x10, oam := [(68, 29), (76, 29)], selCount := 7 }
    let v := u.evalSprite 30 17
    let w := v.evalSprite 30 19
    v.selCount = 8 ∧ v.selAt 7 = 17 ∧ v.ovf = false ∧ w.selCount = 8 ∧ w.selAt 7 = 17 ∧
      w.ovf = true := by decide

/-- A sprite of colour value 1 at the left edge in front of (`attr` 0) or behind (`attr` $20) the
background, as in vectors R7 and R8. -/
def spriteZero (attr : Byte) (bg : BitVec 256) : Ppu :=
  Ppu.drawSprite { vectorCart with chrRam := [(16, 0xFF)] }
    { Ppu.reset with
      mask := 0x18, oam := [(1, 1)] ++ (if attr = 0 then [] else [(2, attr)])
      pal := [(0x11, 0x30)], bgOpaque := bg } 1 0

/-- Vectors R7, R8 and R9. -/
theorem test_sprite_priority_R7_R8_R9 :
    (spriteZero 0 0xFF).fbAt 1 7 = 0x30 ∧ (spriteZero 0 0xFF).s0 = true ∧
      (spriteZero 0x20 0xFF).fbAt 1 7 = 0 ∧ (spriteZero 0x20 0xFF).s0 = true ∧
      (spriteZero 0 0).fbAt 1 7 = 0x30 ∧ (spriteZero 0 0).s0 = false := by decide

/-! ### Witnesses: states that meet the hypotheses of the statements -/

theorem blank_inv : Ppu.Inv Ppu.reset :=
  ⟨by decide, by decide, by decide, by decide, by decide, by decide, by decide, by decide, by decide,
    by decide, rfl, rfl, by decide, by decide⟩

theorem reset_meets_the_invariant : State.reset.Inv :=
  ⟨by decide, by decide,
    insertCartridge_inv none (by simp) (Memory.wf_nil _) (Memory.wf_nil _), blank_inv, by decide⟩

theorem before_vblank_meets_the_invariant : beforeVblank.Inv :=
  ⟨by decide, by decide,
    insertCartridge_inv
      (some ⟨16400, [(4, 1), (0x400B, 0x91), (0x400D, 0x80), (0x400F, 0x90)]⟩)
      (by simp only [Option.mem_def, Option.some.injEq, forall_eq']; decide)
      (Memory.wf_nil _) (Memory.wf_nil _),
    ⟨by decide, by decide, by decide, by decide, by decide, by decide, by decide, by decide, by decide,
      by decide, rfl, rfl, by decide, by decide⟩, by decide⟩

theorem witness_BrkEntersThroughItsVector :
    (machine ⟨0, 0, 0, 0xFD, 0x0000, 0x24⟩ []).cpu.pc = (0xFFFF : Word) + 1 := by decide

theorem witness_DecimalFlagNeverAltersArithmetic :
    (Instr.adcImm 0x01).mnemonic ∉ [Mnemonic.cld, .sed, .plp, .rti, .php, .brk] ∧
      ∃ t, exec (.adcImm 0x01) State.reset = .next t := ⟨by decide, exec_next _ _⟩

/-- With S = $00 the cells are $0100, $01FF and $01FE; their neighbours are outside. -/
theorem witness_ReturnsUndoCallsAndEntries :
    let s := machine ⟨0, 0, 0, 0x00, 0x0200, 0x24⟩ []
    [stackCell s 0, stackCell s 1, stackCell s 2] = [0x100, 0x1FF, 0x1FE] ∧
      ∀ a ∈ [0x0FF, 0x101, 0x1FD, 0x200],
        a ∉ [stackCell s 0, stackCell s 1, stackCell s 2] := by decide

theorem witness_EncodeOfDecodeIsTheBytes :
    ∃ i rest, decode [0xA9, 0x05, 0x77] = .ok (i, rest) ∧ rest = [0x77] := ⟨.ldaImm 0x05, _, rfl, rfl⟩

/-- A live machine whose next opcode byte is unmapped, left out of `EXEC_SET`, or neither. -/
theorem witness_UnmappedAndLeftOutOpcodesHalt :
    let s := machine ⟨0, 0, 0, 0xFD, 0x0200, 0x24⟩ [(0x200, 0xFF)]
    let t := { machine ⟨0, 0, 0, 0xFD, 0x0200, 0x24⟩ [(0x200, 0xEA)] with params := withoutNop }
    s.Live ∧ decode3 s.fetch0 s.fetch1 s.fetch2 = none ∧
      t.Live ∧ t.fetched = some .nop ∧ t.fetch0 ∈ t.params.unimplemented ∧
      State.reset.Live ∧ State.reset.fetched = some .brk ∧
      State.reset.fetch0 ∉ State.reset.params.unimplemented := by decide

theorem witness_StepRunsTheDecodedInstruction :
    State.reset.Live ∧ decode [0x00, 0x00, 0x00] = .ok (.brk, [0x00, 0x00]) ∧
      State.reset.fetch0 = 0x00 ∧ Instr.brk.wellFormed State.reset.params = true ∧
      Instr.nop.wellFormed withoutNop = false ∧
      decode [0x02, 0x00, 0x00] = .error (.unmapped 0x02) := by
  refine ⟨by decide, rfl, by decide, by decide, by decide, rfl⟩

theorem witness_FinishRunsTheBatchThenTheNmi : ∃ t, step State.reset = .next t := ⟨_, rfl⟩

theorem witness_NmiEntryPushesAndVectors :
    nmiVector ∈ [nmiVector, brkVector] ∧ brkVector ∈ [nmiVector, brkVector] := by decide

/-- A halted core with `running` set, one whose loop is stopped, and the halting step of vector H2. -/
theorem witness_HaltedCoreIsTerminal :
    (({ State.reset with halted := true } : State).halted = true ∧
      ({ State.reset with halted := true } : State).running = true ∧
      ({ State.reset with running := false } : State).running = false) ∧
      ∃ s t : State, s.halted = false ∧ step s = .next t ∧ t.halted = true ∧
        decode3 s.fetch0 s.fetch1 s.fetch2 = some .nop := by
  refine ⟨⟨rfl, rfl, rfl⟩,
    { machine ⟨0, 0, 0, 0xFD, 0x0200, 0x24⟩ [(0x200, 0xEA)] with params := withoutNop }, ?_⟩
  refine ⟨_, rfl, rfl, ?_, ?_⟩ <;> decide

theorem witness_EveryInstructionCompletesAndLiveStepsGoOn : State.reset.Live := by decide

/-- A step that enters an NMI and one that does not. -/
theorem witness_StepAdvancesThePpuByItsCycles :
    (∃ s t : State, s.Inv ∧ step s = .next t ∧ t.halted = false ∧ t.cpu.pc = 0x9100) ∧
      ∃ s t : State, s.Inv ∧ step s = .next t ∧ t.halted = false ∧ t.nmiPending = false := by
  constructor
  · refine ⟨{ beforeVblank with wram := [(0x200, 0xEA)] }, _, ?_, rfl, ?_, ?_⟩
    · have h := before_vblank_meets_the_invariant
      exact ⟨by decide, h.ctrlIndex, h.cart, h.ppu, h.stop⟩
    · decide
    · decide
  · exact ⟨State.reset, _, reset_meets_the_invariant, rfl, by decide, by decide⟩

theorem witness_NoNmiIsPendingBetweenIterations :
    beforeVblank.Inv ∧ beforeVblank.params.Legal ∧ beforeVblank.nmiPending = false ∧
      ∃ t, step beforeVblank = .next t :=
  ⟨before_vblank_meets_the_invariant, by decide, rfl, _, rfl⟩

theorem witness_StoredBAndUAreNeverObserved :
    SameButBU State.reset (State.reset.setP 0x14) ∧ ∃ t, step State.reset = .next t :=
  ⟨by decide, _, rfl⟩

/-- Which of the six clauses of `BusReadDecoder` an address falls under. -/
def readClauses (a : Nat) : List Bool :=
  [decide (a < 0x2000), decide (0x2000 ≤ a ∧ a < 0x4000), decide (a = 0x4016),
    decide (0x4000 ≤ a ∧ a < 0x6000 ∧ a ≠ 0x4016), decide (0x6000 ≤ a ∧ a < 0x8000),
    decide (0x8000 ≤ a)]

/-- At each boundary exactly one clause applies; ports 2 and 7 exclude each other. -/
theorem witness_BusReadDecoder :
    (∀ a ∈ [0x0000, 0x1FFF, 0x2000, 0x2002, 0x2007, 0x3FFA, 0x3FFF, 0x4000, 0x4015, 0x4016, 0x4017,
      0x5FFF, 0x6000, 0x7FFF, 0x8000, 0xFFFF], (readClauses a).count true = 1) ∧
    (0x3FFA % 8 = 2 ∧ 0x3FFF % 8 = 7 ∧ 0x2000 % 8 ≠ 2 ∧ 0x2000 % 8 ≠ 7) := by decide

/-- Which of the seven clauses of `BusWriteDecoder` an address falls under. -/
def writeClauses (a : Nat) : List Bool :=
  [decide (a < 0x2000), decide (0x2000 ≤ a ∧ a < 0x4000), decide (a = 0x4014), decide (a = 0x4016),
    decide (0x4000 ≤ a ∧ a < 0x6000 ∧ a ≠ 0x4014 ∧ a ≠ 0x4016), decide (0x6000 ≤ a ∧ a < 0x8000),
    decide (0x8000 ≤ a)]

theorem witness_BusWriteDecoder :
    ∀ a ∈ [0x0000, 0x1FFF, 0x2000, 0x3FFF, 0x4000, 0x4013, 0x4014, 0x4015, 0x4016, 0x4017, 0x5FFF,
      0x6000, 0x7FFF, 0x8000, 0xFFFF], (writeClauses a).count true = 1 := by decide

/-- The last mirror of the first cell and its neighbour; the two ends of a port's mirrors. -/
theorem witness_WorkRamAndPortsAreMirrored :
    (0x0000 < 0x2000 ∧ 0x1800 < 0x2000 ∧ 0x1800 % 0x800 = 0x0000 % 0x800) ∧
      (0x1FFF < 0x2000 ∧ 0x1FFF % 0x800 ≠ 0x0000 % 0x800) ∧
      (0x2000 % 8 = 0 ∧ 0x3FFF % 8 = 7) ∧
      (0x2000 ≤ 0x2007 ∧ 0x2007 < 0x4000 ∧ 0x2000 ≤ 0x3FFF ∧ 0x3FFF < 0x4000 ∧
        0x3FFF % 8 = 0x2007 % 8) := by decide

/-- A store, and an address beside the cell it stores to. -/
theorem witness_MemoryChangesOnlyWhereAnInstructionStores :
    ∃ t, exec (.staAbs 0x0800) State.reset = .next t ∧ Plain 0x0001 ∧
      (∀ b ∈ State.reset.stores (.staAbs 0x0800), ¬ SameCell 0x0001 b) ∧ SameCell 0x0000 0x0800 := by
  have h : State.reset.stores (.staAbs 0x0800) = [0x0800] := rfl
  rw [h]
  refine ⟨_, rfl, by decide, fun b hb => ?_, by decide⟩
  rw [List.mem_singleton.1 hb]
  decide

theorem witness_RegistersAndFlagsChangeOnlyByTheirWriters :
    (∃ t, exec .nop State.reset = .next t) ∧ Instr.nop.mnemonic = .nop ∧ Instr.nop.mode ≠ .acc :=
  ⟨⟨_, rfl⟩, by decide, by decide⟩

/-- OAM DMA of page $20: the byte of port 4 at offset 4 is the one that the copy of port 0 put at
OAM[OAMADDR] four copies before, the latch of port 0 (60_exceptions.md R191, R181). -/
theorem test_dma_of_a_port_page :
    let s : State := { State.reset with ppu := { Ppu.reset with latch := ⟨0x5A, 0, 0, 0, 0⟩ } }
    (copied 0x20 s 5).ppu.oam.read 0 = 0x5A ∧ (copied 0x20 s 5).ppu.oam.read 4 = 0x5A := by decide

theorem witness_OamDmaCopiesAPage :
    ((0x1F : Byte).toNat < 0x20 ∨ 0x40 < (0x1F : Byte).toNat) ∧
      ((0x41 : Byte).toNat < 0x20 ∨ 0x40 < (0x41 : Byte).toNat) := by decide

/-- The strobe on; the strobe off at the first button and after the last. -/
theorem witness_ControllerShiftsOutTheButtons :
    (State.reset.memWrite 0x4016 1).ctrl.strobe = true ∧ State.reset.ctrl.strobe = false ∧
      State.reset.ctrl.index ≤ 8 ∧ (readTimes 0x4016 8 State.reset).ctrl.index = 8 := by decide

/-- The default parameters are in direct mode; in buffered mode, the last address before the palette
and the first of it. -/
theorem witness_StatusAndDataPortReads :
    State.reset.params.ppuDataMode = .direct ∧
      ({ Params.default with ppuDataMode := .buffered } : Params).ppuDataMode = .buffered ∧
      (0x3EFF : VAddr).toNat < 0x3F00 ∧ 0x3F00 ≤ (0x3F00 : VAddr).toNat := by decide

/-- The regions of the PPU's space an address of `PpuMemoryReadAfterWrite` falls under. -/
def ppuRegions (a : Nat) : List Bool :=
  [decide (a < 0x2000), decide (0x2000 ≤ a ∧ a < 0x3F00), decide (0x3F00 ≤ a ∧ a < 0x4000)]

theorem witness_PpuMemoryReadAfterWrite :
    ∀ a ∈ [0x0000, 0x1FFF, 0x2000, 0x3EFF, 0x3F00, 0x3FFF], (ppuRegions a).count true = 1 := by decide

/-- Images of 15 and 16 bytes, and the ends of the two address ranges. -/
theorem witness_CartridgeReadsAndHeader :
    0x8000 ≤ (0x8000 : Word).toNat ∧ 0x8000 ≤ (0xFFFF : Word).toNat ∧ 0x1FFF < 0x2000 ∧
      (List.replicate 15 (0 : Byte)).length < 16 ∧ 16 ≤ (List.replicate 16 (0 : Byte)).length ∧
      some (Image.ofBytes (List.replicate 16 0)) ∈
        [none, some (Image.ofBytes (List.replicate 16 0))] := by
  refine ⟨by decide, by decide, by decide, by decide, by decide, by simp⟩

theorem witness_CanonicalMemoriesWithEqualReadsAreEqual :
    ∃ m : Memory, m ≠ [] ∧ Memory.wf 2048 m ∧ Memory.wf 0x800 m ∧ ∀ a, m.read a = m.read a :=
  ⟨[(0, 1), (0x7FF, 2)], by decide, by decide, by decide, fun _ => rfl⟩

/-- Which of the six clauses of `PpuDotActionsByPosition` a position falls under. -/
def dotClauses (p : Nat × Nat) : List Bool :=
  [decide (p.1 ≤ 239 ∧ 1 ≤ p.2 ∧ p.2 ≤ 256), decide (p.1 ≤ 239 ∧ p.2 = 257),
    decide (p.1 ≤ 239 ∧ 258 ≤ p.2 ∧ p.2 ≤ 320), decide (p.1 = 241 ∧ p.2 = 0),
    decide (p.1 = 261 ∧ p.2 = 0), decide (Idle p.1 p.2)]

/-- Every boundary position is in range and under exactly one clause. -/
theorem witness_PpuDotActionsByPosition :
    ∀ p ∈ [(0, 0), (0, 1), (239, 256), (239, 257), (0, 258), (239, 320), (239, 321), (239, 340),
      (240, 0), (240, 340), (241, 0), (241, 1), (242, 0), (260, 340), (261, 0), (261, 1), (261, 340)],
      p.1 < 262 ∧ p.2 < 341 ∧ (dotClauses p).count true = 1 := by decide

/-- A PPU that meets the invariant at vblank entry, one inside vblank, and one at the pre-render
dot. -/
theorem witness_OneNmiRequestPerVblank :
    Ppu.Inv { Ppu.reset with scanline := 241 } ∧
      Ppu.Inv { Ppu.reset with scanline := 241, dot := 1, nmiGuard := true } ∧
      Ppu.Inv { Ppu.reset with scanline := 261, nmiGuard := true } ∧
      InVblank (341 * 241 + 1) ∧ InVblank (341 * 261) := by
  refine ⟨⟨by decide, by decide, by decide, by decide, by decide, by decide, by decide, by decide,
    by decide, by decide, rfl, rfl, by decide, by decide⟩,
    ⟨by decide, by decide, by decide, by decide, by decide, by decide, by decide, by decide,
    by decide, by decide, rfl, rfl, by decide, by decide⟩,
    ⟨by decide, by decide, by decide, by decide, by decide, by decide, by decide, by decide,
    by decide, by decide, rfl, rfl, by decide, by decide⟩, by decide, by decide⟩

/-- The last line and the last tile column. -/
theorem witness_BackgroundFetchesFourBytesPerTile :
    239 < 240 ∧ 31 < 32 ∧ 8 * 31 + 8 = 256 ∧ 7 ∈ [1, 3, 5, 7] := by decide

/-- The last line, tile column and pixel; a column and a line outside the tile. -/
theorem witness_BackgroundCompositePaintsEightPixels :
    239 < 240 ∧ 31 < 32 ∧ 7 < 8 ∧ 8 * 31 + 7 < 256 ∧ 247 / 8 ≠ 31 ∧ ¬ (238 = 239 ∧ 255 / 8 = 31) := by
  decide

theorem evalSprite_selCount_le (s : Nat) (l : List Nat) (u : Ppu) :
    u.selCount ≤ (l.foldl (Ppu.evalSprite s) u).selCount := by
  induction l generalizing u with
  | nil => exact Nat.le_refl _
  | cons i l ih =>
    refine Nat.le_trans ?_ (ih (u.evalSprite s i))
    unfold Ppu.evalSprite
    split_ifs <;> first | exact Nat.le_refl _ | exact Nat.le_succ _

/-- Sprites off; on with every sprite on line 1 (their Y bytes are 0), so that slot 0 is filled. -/
theorem witness_SpriteEvaluationSelectsTheFirstEight :
    Ppu.reset.mask.getLsbD 4 = false ∧ (0x10 : Byte).getLsbD 4 = true ∧
      0 < (Ppu.spriteEval { Ppu.reset with mask := 0x10 } 1).selCount := by
  refine ⟨by decide, by decide, ?_⟩
  unfold Ppu.spriteEval
  rw [if_pos (by decide), show List.range 64 = 0 :: (List.range 63).map (1 + ·) by decide,
    List.foldl_cons]
  refine Nat.lt_of_lt_of_le ?_ (evalSprite_selCount_le 1 _ _)
  decide

/-- The last line, slot, sprite and column; the first and last idle dots of the slots; sprite 0 owns a
column with an opaque background. -/
theorem witness_SpriteCompositeClaimsAndPaints :
    239 < 240 ∧ 7 < 8 ∧ 264 + 8 * 7 = 320 ∧ (257 ≤ 257 ∧ 257 ≤ 320 ∧ 257 % 8 ≠ 0) ∧
      (257 ≤ 319 ∧ 319 ≤ 320 ∧ 319 % 8 ≠ 0) ∧ 63 < 64 ∧ 255 < 256 ∧ 238 ≠ 239 ∧
      Owns { vectorCart with chrRam := [(16, 0xFF)] }
        { Ppu.reset with oam := [(1, 1)], bgOpaque := 1 } 1 0 0 := by decide +kernel

/-- A store to work RAM reaches no port; stores to the two ports and to $4014 do. -/
theorem witness_PpuMemoryIsReachedOnlyThroughItsPorts :
    (∃ t, exec (.staZp 0x10) State.reset = .next t) ∧
      State.reset.stores (.staZp 0x10) = [0x0010] ∧
      State.reset.stores (.staAbs 0x2007) = [0x2007] ∧ State.reset.stores (.staAbs 0x4014) = [0x4014] :=
  ⟨exec_next _ _, by decide, by decide, by decide⟩

/-- No image, and an image of 15 bytes. -/
theorem witness_ResetIsPowerUpWithNothing :
    (∀ im ∈ PowerUpInput.blank.image, im.1 < 16) ∧
      ∀ im ∈ ({ PowerUpInput.blank with image := some (15, [(4, 1)]) } : PowerUpInput).image,
        im.1 < 16 := by
  constructor <;> simp [PowerUpInput.blank]

theorem witness_PowerUpAndHostActionsMeetTheInvariant : State.reset.Inv := reset_meets_the_invariant

theorem witness_StepKeepsTheInvariant :
    ∃ s t : State, s.Inv ∧ step s = .next t ∧ Reachable s :=
  ⟨State.reset, _, reset_meets_the_invariant, rfl,
    test_power_up_without_a_cartridge_M5 ▸ Reachable.powerUp _⟩

theorem witness_BranchDisplacementIsTheDistanceToTheTarget :
    (relByte 0x8005 0x8005 = some 0xFE ∧ relTarget 0x8005 0xFE = 0x8005) ∧
      (machine ⟨0, 0, 0, 0xFD, 0x8007, 0x24⟩ []).cpu.pc = 0x8005 + 2 := by decide

end Sys2Proof.Tests
end

section
/-! PROOFS of the family 10_state.md. What a step answers in each of its five cases, the stack
primitives, and the halted core; then the noninterference of the stored B and U, for which the
relation `SameButBU` is shown to be a congruence for every operation of the model. -/

namespace Sys2Proof.Machine

/-! ### The step, one equation per case -/

theorem step_of_not_running {s : State} (h : s.running = false) : step s = .fault .notRunning := by
  simp [step, h]

theorem step_of_halted {s : State} (hr : s.running = true) (hh : s.halted = true) :
    step s = .fault .coreHalted := by
  simp [step, hr, hh]

theorem step_of_unmapped {s : State} (hl : s.Live) (hf : s.fetched = none) :
    step s = .next (s.afterFetch.halt (.invalidOpcode s.fetch0 s.cpu.pc)) := by
  simp [step, hl.1, hl.2, hf]

theorem step_of_left_out {s : State} {i : Instr} (hl : s.Live) (hf : s.fetched = some i)
    (hw : i.wellFormed s.params = false) :
    step s = .next (s.afterFetch.halt (.unimplemented s.fetch0 s.cpu.pc)) := by
  simp [step, hl.1, hl.2, hf, hw]

theorem step_of_exec {s t : State} {i : Instr} (hl : s.Live) (hf : s.fetched = some i)
    (hw : i.wellFormed s.params = true) (ht : exec i (s.afterFetch.advancePc i) = .next t) :
    step s = .next (t.finish (cyclesOf s.params i.opcode)) := by
  simp [step, hl.1, hl.2, hf, hw, ht]

/-! ### The stack -/

/-- Settles O22, by the stack laws: the stack page is work RAM, so a push is one cell and S. -/
theorem stackPrimitives : Obligations.StackPrimitives := fun s v _ =>
  ⟨s.push_eq v, rfl, s.pulled_eq, rfl, rfl, rfl⟩

/-! ### Halting -/

/-- No host action touches `halted` (10_state.md R30). -/
@[simp] theorem State.hostAct_halted (s : State) (h : HostAction) :
    (s.hostAct h).halted = s.halted := by
  cases h <;> rfl

theorem wellFormed_eq_false_iff (ps : Params) (i : Instr) :
    i.wellFormed ps = false ↔ i.opcode ∈ ps.unimplemented := by
  simp [Instr.wellFormed]

/-- An instruction that runs to its end does not halt the core (60_exceptions.md R165). -/
theorem finish_of_exec_halted {s t : State} {i : Instr} {n : Nat}
    (h : exec i (s.afterFetch.advancePc i) = .next t) : (t.finish n).halted = s.halted := by
  have hc : t.halted = (s.afterFetch.advancePc i).halted := (exec_control h).1
  rw [State.finish_halted, hc, State.advancePc, State.setPc_halted, State.afterFetch_halted]

/-- A step that halts on a mapped opcode byte does so because `EXEC_SET` leaves the byte out. -/
theorem left_out_of_step_halts {s t : State} {i : Instr} (h : step s = .next t)
    (ht : t.halted = true) (hf : s.fetched = some i) : i.opcode ∈ s.params.unimplemented := by
  have hl : s.Live := live_of_step h
  cases hw : i.wellFormed s.params with
  | false => exact (wellFormed_eq_false_iff _ _).1 hw
  | true =>
    obtain ⟨t0, ht0⟩ := exec_next i (s.afterFetch.advancePc i)
    obtain rfl := next_inj (step_of_exec hl hf hw ht0) h
    rw [finish_of_exec_halted ht0, hl.2] at ht
    cases ht

/-- Settles O32: the faults are the first two cases of the step, no host action writes `halted`, and
a completed instruction leaves it clear. -/
theorem haltedCoreIsTerminal : Obligations.HaltedCoreIsTerminal := by
  refine ⟨rfl, fun s hh => ⟨fun hr => step_of_halted hr hh, fun a => ?_⟩,
    fun s => step_of_not_running, fun s t _ h ht i hf => left_out_of_step_halts h ht hf⟩
  rw [State.hostAct_halted, hh]

/-! ### Status bytes that agree outside B and U (10_state.md R27) -/

section SameFlags

variable {p q : Byte}

/-- A flag a branch or an operation can test is not B or U. -/
theorem SameFlags.getFlag (h : SameFlags p q) {f : Flag} (hb : f ≠ .b) (hu : f ≠ .u) :
    Machine.getFlag p f = Machine.getFlag q f := by
  have visible (r : Byte) : Machine.getFlag (r ||| 0x30) f = Machine.getFlag r f := by
    cases f <;> simp_all [Machine.getFlag, Flag.bit]
  rw [← visible p, h, visible]

theorem SameFlags.setFlag (h : SameFlags p q) (f : Flag) (b : Bool) :
    SameFlags (Machine.setFlag p f b) (Machine.setFlag q f b) := by
  refine byte_ext fun i _ => ?_
  have hi := congrArg (·.getLsbD i) h
  simp only [BitVec.getLsbD_or, Machine.setFlag, getLsbD_setBit] at hi ⊢
  split
  · rfl
  · exact hi

theorem SameFlags.setZN (h : SameFlags p q) (v : Byte) :
    SameFlags (Machine.setZN p v) (Machine.setZN q v) :=
  (h.setFlag .z _).setFlag .n _

theorem SameFlags.compare (h : SameFlags p q) (l m : Byte) :
    SameFlags (Machine.compare p l m) (Machine.compare q l m) :=
  ((h.setFlag .c _).setFlag .z _).setFlag .n _

theorem SameFlags.bitTest (h : SameFlags p q) (a m : Byte) :
    SameFlags (Machine.bitTest p a m) (Machine.bitTest q a m) :=
  ((h.setFlag .z _).setFlag .n _).setFlag .v _

/-- NMI entry pushes B as 0 and U as 1, whatever is stored. -/
theorem SameFlags.pushedByNmi (h : SameFlags p q) :
    Machine.pushedByNmi p = Machine.pushedByNmi q := by
  have masked (r : Byte) : Machine.pushedByNmi r = (r ||| 0x30) &&& ~~~0x10 := by
    rw [Machine.pushedByNmi, BitVec.and_or_distrib_right]; rfl
  rw [masked, masked, h]

/-- An operation on P and a byte whose result does not depend on B and U, and whose new P depends on
them only in B and U. -/
def BlindToBU (g : Byte → Byte → Byte × Byte) : Prop :=
  ∀ {p q : Byte}, SameFlags p q → ∀ v, (g p v).1 = (g q v).1 ∧ SameFlags (g p v).2 (g q v).2

theorem adc_blind (a : Byte) : BlindToBU (adc · a) := fun {p q} h m => by
  have hc : getFlag p .c = getFlag q .c := h.getFlag (by decide) (by decide)
  simp only [adc, hc]
  exact ⟨trivial, ((h.setFlag .c _).setFlag .v _).setZN _⟩

theorem sbc_blind (a : Byte) : BlindToBU (sbc · a) := fun h m => adc_blind a h (m ^^^ 0xFF)

theorem asl_blind : BlindToBU asl := fun h _ => ⟨rfl, h.setFlag .c _⟩

theorem lsr_blind : BlindToBU lsr := fun h _ => ⟨rfl, h.setFlag .c _⟩

theorem rol_blind : BlindToBU rol := fun h v =>
  ⟨congrArg (setBit (v <<< 1) 0) (h.getFlag (by decide) (by decide)), h.setFlag .c _⟩

theorem ror_blind : BlindToBU ror := fun h v =>
  ⟨congrArg (setBit (v >>> 1) 7) (h.getFlag (by decide) (by decide)), h.setFlag .c _⟩

theorem inc_blind : BlindToBU inc := fun h _ => ⟨rfl, h⟩

theorem dec_blind : BlindToBU dec := fun h _ => ⟨rfl, h⟩

end SameFlags

/-! ### The bus does not look at P -/

theorem State.setP_touch (s : State) (p : Byte) (a : Word) :
    (s.setP p).touch a = (s.touch a).setP p := by
  rw [State.setP, State.touch_withCpu, State.setP, State.touch_cpu]

theorem State.setP_memWrite (s : State) (p : Byte) (a : Word) (v : Byte) :
    (s.setP p).memWrite a v = (s.memWrite a v).setP p := by
  rw [State.setP, State.memWrite_withCpu, State.setP, State.memWrite_cpu]

/-! ### States that agree outside B and U

What a program reads is equal in the two states, and every operation, given equal arguments, leads to
two states so related again. -/

namespace SameButBU

variable {s s' : State} {a a' : Word} {v v' : Byte}

/-! What the two states agree on. -/

theorem cpu_a (h : SameButBU s s') : s.cpu.a = s'.cpu.a := (congrArg (·.cpu.a) h.2).symm
theorem cpu_x (h : SameButBU s s') : s.cpu.x = s'.cpu.x := (congrArg (·.cpu.x) h.2).symm
theorem cpu_y (h : SameButBU s s') : s.cpu.y = s'.cpu.y := (congrArg (·.cpu.y) h.2).symm
theorem cpu_s (h : SameButBU s s') : s.cpu.s = s'.cpu.s := (congrArg (·.cpu.s) h.2).symm
theorem cpu_pc (h : SameButBU s s') : s.cpu.pc = s'.cpu.pc := (congrArg (·.cpu.pc) h.2).symm
theorem params (h : SameButBU s s') : s.params = s'.params := (congrArg (·.params) h.2).symm
theorem nmiPending (h : SameButBU s s') : s.nmiPending = s'.nmiPending :=
  (congrArg (·.nmiPending) h.2).symm

theorem live (h : SameButBU s s') (hl : s.Live) : s'.Live := by
  rw [h.2]; exact hl

theorem flag (h : SameButBU s s') {f : Flag} (hb : f ≠ .b) (hu : f ≠ .u) : s.flag f = s'.flag f :=
  h.1.getFlag hb hu

theorem peek (h : SameButBU s s') (a : Word) : s.peek a = s'.peek a :=
  (congrArg (·.peek a) h.2).symm

theorem peek16 (h : SameButBU s s') (a : Word) : s.peek16 a = s'.peek16 a :=
  congrArg₂ ofHiLo (h.peek (a + 1)) (h.peek a)

theorem ea (h : SameButBU s s') (f : MemForm) : s.ea f = s'.ea f :=
  (congrArg (·.ea f) h.2).symm

theorem operand (h : SameButBU s s') (m : Source) : s.operand m = s'.operand m :=
  (congrArg (·.operand m) h.2).symm

theorem pulled (h : SameButBU s s') : s.pulled = s'.pulled := (congrArg (·.pulled) h.2).symm

theorem branchTarget (h : SameButBU s s') (d : Byte) : s.branchTarget d = s'.branchTarget d :=
  (congrArg (·.branchTarget d) h.2).symm

/-! The register updates. -/

theorem setA (h : SameButBU s s') (hv : v = v') : SameButBU (s.setA v) (s'.setA v') :=
  ⟨h.1, hv ▸ congrArg (·.setA v) h.2⟩

theorem setX (h : SameButBU s s') (hv : v = v') : SameButBU (s.setX v) (s'.setX v') :=
  ⟨h.1, hv ▸ congrArg (·.setX v) h.2⟩

theorem setY (h : SameButBU s s') (hv : v = v') : SameButBU (s.setY v) (s'.setY v') :=
  ⟨h.1, hv ▸ congrArg (·.setY v) h.2⟩

theorem setS (h : SameButBU s s') (hv : v = v') : SameButBU (s.setS v) (s'.setS v') :=
  ⟨h.1, hv ▸ congrArg (·.setS v) h.2⟩

theorem setPc (h : SameButBU s s') (ha : a = a') : SameButBU (s.setPc a) (s'.setPc a') :=
  ⟨h.1, ha ▸ congrArg (·.setPc a) h.2⟩

theorem setP (h : SameButBU s s') (hp : SameFlags v v') : SameButBU (s.setP v) (s'.setP v') :=
  ⟨hp, congrArg (·.setP v') h.2⟩

theorem putFlag (h : SameButBU s s') (f : Flag) (b : Bool) :
    SameButBU (s.putFlag f b) (s'.putFlag f b) :=
  h.setP (h.1.setFlag f b)

theorem setZN (h : SameButBU s s') (hv : v = v') : SameButBU (s.setZN v) (s'.setZN v') :=
  h.setP (hv ▸ h.1.setZN v)

/-! The bus and the stack. -/

theorem touch (h : SameButBU s s') (ha : a = a') : SameButBU (s.touch a) (s'.touch a') := by
  subst ha
  constructor
  · simpa using h.1
  · rw [State.touch_cpu, ← State.setP_touch, ← h.2]

theorem memWrite (h : SameButBU s s') (ha : a = a') (hv : v = v') :
    SameButBU (s.memWrite a v) (s'.memWrite a' v') := by
  subst ha hv
  constructor
  · simpa using h.1
  · rw [State.memWrite_cpu, ← State.setP_memWrite, ← h.2]

theorem push (h : SameButBU s s') (hv : v = v') : SameButBU (s.push v) (s'.push v') := by
  have hw := h.memWrite (congrArg stackAddr h.cpu_s) hv
  exact hw.setS (congrArg (· - 1) hw.cpu_s)

theorem push16 (h : SameButBU s s') (ha : a = a') : SameButBU (s.push16 a) (s'.push16 a') :=
  (h.push (congrArg hiByte ha)).push (congrArg loByte ha)

theorem pull (h : SameButBU s s') : SameButBU s.pull s'.pull := h.setS (congrArg (· + 1) h.cpu_s)

theorem pull16 (h : SameButBU s s') : SameButBU s.pull16 s'.pull16 := h.pull.pull

theorem pulled16 (h : SameButBU s s') : s.pulled16 = s'.pulled16 :=
  congrArg₂ ofHiLo h.pull.pulled h.pulled

/-! The shared operations of the meanings. -/

theorem afterOperand (h : SameButBU s s') (m : Source) :
    SameButBU (s.afterOperand m) (s'.afterOperand m) := by
  cases m with
  | imm _ => exact h
  | mem f => exact h.touch (h.ea f)

theorem loadA (h : SameButBU s s') (m : Source) : SameButBU (s.loadA m) (s'.loadA m) :=
  ((h.afterOperand m).setA (h.operand m)).setZN (h.operand m)

theorem loadX (h : SameButBU s s') (m : Source) : SameButBU (s.loadX m) (s'.loadX m) :=
  ((h.afterOperand m).setX (h.operand m)).setZN (h.operand m)

theorem loadY (h : SameButBU s s') (m : Source) : SameButBU (s.loadY m) (s'.loadY m) :=
  ((h.afterOperand m).setY (h.operand m)).setZN (h.operand m)

theorem store (h : SameButBU s s') (f : MemForm) (hv : v = v') :
    SameButBU (s.store f v) (s'.store f v') :=
  h.memWrite (h.ea f) hv

theorem addA (h : SameButBU s s') (m : Source) : SameButBU (s.addA m) (s'.addA m) := by
  have ⟨hr, hp⟩ := adc_blind s.cpu.a h.1 (s.operand m)
  simp only [State.addA, ← h.cpu_a, ← h.operand m]
  exact ((h.afterOperand m).setA hr).setP hp

theorem subA (h : SameButBU s s') (m : Source) : SameButBU (s.subA m) (s'.subA m) := by
  have ⟨hr, hp⟩ := sbc_blind s.cpu.a h.1 (s.operand m)
  simp only [State.subA, ← h.cpu_a, ← h.operand m]
  exact ((h.afterOperand m).setA hr).setP hp

theorem logicA (h : SameButBU s s') (op : Byte → Byte → Byte) (m : Source) :
    SameButBU (s.logicA op m) (s'.logicA op m) := by
  have hr := congrArg₂ op h.cpu_a (h.operand m)
  exact ((h.afterOperand m).setA hr).setZN hr

theorem testA (h : SameButBU s s') (f : MemForm) : SameButBU (s.testA f) (s'.testA f) := by
  simp only [State.testA, ← h.cpu_a, ← h.operand (.mem f)]
  exact (h.afterOperand (.mem f)).setP (h.1.bitTest _ _)

theorem compareWith (h : SameButBU s s') (hv : v = v') (m : Source) :
    SameButBU (s.compareWith v m) (s'.compareWith v' m) := by
  simp only [State.compareWith, ← hv, ← h.operand m]
  exact (h.afterOperand m).setP (h.1.compare _ _)

theorem rmw (h : SameButBU s s') {g : Byte → Byte → Byte × Byte} (hg : BlindToBU g)
    (m : RmwForm) : SameButBU (s.rmw g m) (s'.rmw g m) := by
  cases m with
  | acc =>
    have ⟨hr, hp⟩ := hg h.1 s.cpu.a
    simp only [State.rmw, ← h.cpu_a]
    exact ((h.setP hp).setA hr).setZN hr
  | mem f =>
    have ⟨hr, hp⟩ := hg h.1 (s.peek (s.ea f))
    simp only [State.rmw, ← h.ea f, ← h.peek]
    exact (((h.touch rfl).setP hp).memWrite rfl hr).setZN hr

theorem branch (h : SameButBU s s') {c c' : Bool} (hc : c = c') (d : Byte) :
    SameButBU (s.branch c d) (s'.branch c' d) := by
  subst hc
  cases c with
  | false => exact h
  | true => exact h.setPc (h.branchTarget d)

theorem jmpHighAddr (h : SameButBU s s') (w : Word) :
    Machine.jmpHighAddr s.params w = Machine.jmpHighAddr s'.params w :=
  congrArg (Machine.jmpHighAddr · w) h.params

theorem afterIndirect (h : SameButBU s s') (w : Word) :
    SameButBU (s.afterIndirect w) (s'.afterIndirect w) :=
  (h.touch rfl).touch (h.jmpHighAddr w)

theorem indirectTarget (h : SameButBU s s') (w : Word) :
    s.indirectTarget w = s'.indirectTarget w := by
  rw [State.indirectTarget, State.indirectTarget, ← h.jmpHighAddr w, ← h.peek w,
    (h.touch rfl).peek]

theorem interruptEntry (h : SameButBU s s') (ha : a = a') (hv : v = v') (vec : Word) :
    SameButBU (s.interruptEntry a v vec) (s'.interruptEntry a' v' vec) := by
  have hi := ((h.push16 ha).push hv).putFlag .i true
  exact hi.setPc (hi.peek16 vec)

theorem interruptReturn (h : SameButBU s s') :
    SameButBU s.interruptReturn s'.interruptReturn := by
  have hp := h.pull.setP (congrArg (· ||| 0x30) h.pulled)
  exact hp.pull16.setPc hp.pulled16

/-! Around an instruction. -/

theorem fetch0 (h : SameButBU s s') : s.fetch0 = s'.fetch0 := (congrArg (·.fetch0) h.2).symm

theorem afterFetch (h : SameButBU s s') : SameButBU s.afterFetch s'.afterFetch :=
  ((h.touch h.cpu_pc).touch (congrArg (· + 1) h.cpu_pc)).touch (congrArg (· + 2) h.cpu_pc)

theorem fetch1 (h : SameButBU s s') : s.fetch1 = s'.fetch1 := by
  have h1 := h.touch h.cpu_pc
  rw [State.fetch1, State.fetch1, h1.peek, h.cpu_pc]

theorem fetch2 (h : SameButBU s s') : s.fetch2 = s'.fetch2 := by
  have h2 := (h.touch h.cpu_pc).touch (congrArg (· + 1) h.cpu_pc)
  rw [State.fetch2, State.fetch2, h2.peek, h.cpu_pc]

theorem fetched (h : SameButBU s s') : s.fetched = s'.fetched := by
  rw [State.fetched, State.fetched, h.fetch0, h.fetch1, h.fetch2]

theorem advancePc (h : SameButBU s s') (i : Instr) :
    SameButBU (s.advancePc i) (s'.advancePc i) :=
  h.setPc (congrArg (· + BitVec.ofNat 16 i.length) h.cpu_pc)

theorem halt (h : SameButBU s s') {c c' : HaltCause} (hc : c = c') :
    SameButBU (s.halt c) (s'.halt c') :=
  ⟨h.1, hc ▸ congrArg (·.halt c) h.2⟩

theorem ppuBatch (h : SameButBU s s') (n : Nat) : SameButBU (s.ppuBatch n) (s'.ppuBatch n) :=
  ⟨h.1, congrArg (·.ppuBatch n) h.2⟩

theorem clearNmi (h : SameButBU s s') :
    SameButBU { s with nmiPending := false } { s' with nmiPending := false } :=
  ⟨h.1, congrArg (fun u => { u with nmiPending := false }) h.2⟩

theorem nmiEntry (h : SameButBU s s') : SameButBU s.nmiEntry s'.nmiEntry :=
  h.interruptEntry h.cpu_pc h.1.pushedByNmi _

theorem nmiCheck (h : SameButBU s s') : SameButBU s.nmiCheck s'.nmiCheck := by
  rw [State.nmiCheck, State.nmiCheck, ← h.nmiPending]
  split
  · exact h.clearNmi.nmiEntry.ppuBatch _
  · exact h

theorem finish (h : SameButBU s s') (n : Nat) : SameButBU (s.finish n) (s'.finish n) :=
  (h.ppuBatch _).nmiCheck

/-- Every instruction completes in the two states, and leads to two states so related: branches test
only visible flags, and PHP and BRK push both bits as 1 (10_state.md R27). -/
theorem exec (h : SameButBU s s') (i : Instr) :
    ∃ t t', Machine.exec i s = .next t ∧ Machine.exec i s' = .next t' ∧ SameButBU t t' := by
  cases i with
  | ldaImm _ | ldaZp _ | ldaZpx _ | ldaAbs _ | ldaAbsx _ | ldaAbsy _ | ldaIndx _ | ldaIndy _ =>
    exact ⟨_, _, rfl, rfl, h.loadA _⟩
  | ldxImm _ | ldxZp _ | ldxZpy _ | ldxAbs _ | ldxAbsy _ => exact ⟨_, _, rfl, rfl, h.loadX _⟩
  | ldyImm _ | ldyZp _ | ldyZpx _ | ldyAbs _ | ldyAbsx _ => exact ⟨_, _, rfl, rfl, h.loadY _⟩
  | staZp _ | staZpx _ | staAbs _ | staAbsx _ | staAbsy _ | staIndx _ | staIndy _ =>
    exact ⟨_, _, rfl, rfl, h.store _ h.cpu_a⟩
  | stxZp _ | stxZpy _ | stxAbs _ => exact ⟨_, _, rfl, rfl, h.store _ h.cpu_x⟩
  | styZp _ | styZpx _ | styAbs _ => exact ⟨_, _, rfl, rfl, h.store _ h.cpu_y⟩
  | tax => exact ⟨_, _, rfl, rfl, (h.setX h.cpu_a).setZN h.cpu_a⟩
  | tay => exact ⟨_, _, rfl, rfl, (h.setY h.cpu_a).setZN h.cpu_a⟩
  | txa => exact ⟨_, _, rfl, rfl, (h.setA h.cpu_x).setZN h.cpu_x⟩
  | tya => exact ⟨_, _, rfl, rfl, (h.setA h.cpu_y).setZN h.cpu_y⟩
  | tsx => exact ⟨_, _, rfl, rfl, (h.setX h.cpu_s).setZN h.cpu_s⟩
  | txs => exact ⟨_, _, rfl, rfl, h.setS h.cpu_x⟩
  | adcImm _ | adcZp _ | adcZpx _ | adcAbs _ | adcAbsx _ | adcAbsy _ | adcIndx _ | adcIndy _ =>
    exact ⟨_, _, rfl, rfl, h.addA _⟩
  | sbcImm _ | sbcZp _ | sbcZpx _ | sbcAbs _ | sbcAbsx _ | sbcAbsy _ | sbcIndx _ | sbcIndy _ =>
    exact ⟨_, _, rfl, rfl, h.subA _⟩
  | andImm _ | andZp _ | andZpx _ | andAbs _ | andAbsx _ | andAbsy _ | andIndx _ | andIndy _
  | oraImm _ | oraZp _ | oraZpx _ | oraAbs _ | oraAbsx _ | oraAbsy _ | oraIndx _ | oraIndy _
  | eorImm _ | eorZp _ | eorZpx _ | eorAbs _ | eorAbsx _ | eorAbsy _ | eorIndx _ | eorIndy _ =>
    exact ⟨_, _, rfl, rfl, h.logicA _ _⟩
  | bitZp _ | bitAbs _ => exact ⟨_, _, rfl, rfl, h.testA _⟩
  | cmpImm _ | cmpZp _ | cmpZpx _ | cmpAbs _ | cmpAbsx _ | cmpAbsy _ | cmpIndx _ | cmpIndy _ =>
    exact ⟨_, _, rfl, rfl, h.compareWith h.cpu_a _⟩
  | cpxImm _ | cpxZp _ | cpxAbs _ => exact ⟨_, _, rfl, rfl, h.compareWith h.cpu_x _⟩
  | cpyImm _ | cpyZp _ | cpyAbs _ => exact ⟨_, _, rfl, rfl, h.compareWith h.cpu_y _⟩
  | incZp _ | incZpx _ | incAbs _ | incAbsx _ => exact ⟨_, _, rfl, rfl, h.rmw inc_blind _⟩
  | decZp _ | decZpx _ | decAbs _ | decAbsx _ => exact ⟨_, _, rfl, rfl, h.rmw dec_blind _⟩
  | inx =>
    have hx := congrArg (· + 1) h.cpu_x
    exact ⟨_, _, rfl, rfl, (h.setX hx).setZN hx⟩
  | iny =>
    have hy := congrArg (· + 1) h.cpu_y
    exact ⟨_, _, rfl, rfl, (h.setY hy).setZN hy⟩
  | dex =>
    have hx := congrArg (· - 1) h.cpu_x
    exact ⟨_, _, rfl, rfl, (h.setX hx).setZN hx⟩
  | dey =>
    have hy := congrArg (· - 1) h.cpu_y
    exact ⟨_, _, rfl, rfl, (h.setY hy).setZN hy⟩
  | aslAcc | aslZp _ | aslZpx _ | aslAbs _ | aslAbsx _ => exact ⟨_, _, rfl, rfl, h.rmw asl_blind _⟩
  | lsrAcc | lsrZp _ | lsrZpx _ | lsrAbs _ | lsrAbsx _ => exact ⟨_, _, rfl, rfl, h.rmw lsr_blind _⟩
  | rolAcc | rolZp _ | rolZpx _ | rolAbs _ | rolAbsx _ => exact ⟨_, _, rfl, rfl, h.rmw rol_blind _⟩
  | rorAcc | rorZp _ | rorZpx _ | rorAbs _ | rorAbsx _ => exact ⟨_, _, rfl, rfl, h.rmw ror_blind _⟩
  | bcs d | beq d | bmi d | bvs d =>
    exact ⟨_, _, rfl, rfl, h.branch (h.flag (by decide) (by decide)) d⟩
  | bcc d | bne d | bpl d | bvc d =>
    exact ⟨_, _, rfl, rfl, h.branch (congrArg not (h.flag (by decide) (by decide))) d⟩
  | jmpAbs w => exact ⟨_, _, rfl, rfl, h.setPc rfl⟩
  | jmpInd w => exact ⟨_, _, rfl, rfl, (h.afterIndirect w).setPc (h.indirectTarget w)⟩
  | jsrAbs w =>
    have hret := congrArg (· - 1) h.cpu_pc
    exact ⟨_, _, rfl, rfl, (h.push16 hret).setPc rfl⟩
  | rts => exact ⟨_, _, rfl, rfl, h.pull16.setPc (congrArg (· + 1) h.pulled16)⟩
  | pha => exact ⟨_, _, rfl, rfl, h.push h.cpu_a⟩
  | php => exact ⟨_, _, rfl, rfl, h.push h.1⟩
  | pla => exact ⟨_, _, rfl, rfl, (h.pull.setA h.pulled).setZN h.pulled⟩
  | plp => exact ⟨_, _, rfl, rfl, h.pull.setP (congrArg (· ||| 0x30) h.pulled)⟩
  | clc | cld | cli | clv | sec | sed | sei => exact ⟨_, _, rfl, rfl, h.putFlag _ _⟩
  | brk =>
    have hret : s.cpu.pc - 1 + brkOffset s.params = s'.cpu.pc - 1 + brkOffset s'.params := by
      rw [h.cpu_pc, h.params]
    exact ⟨_, _, rfl, rfl, h.interruptEntry hret h.1 _⟩
  | rti => exact ⟨_, _, rfl, rfl, h.interruptReturn⟩
  | nop => exact ⟨_, _, rfl, rfl, h⟩

/-- Two related live states step to related states: they fetch the same instruction, and run it, or
halt with the same cause. -/
theorem step (h : SameButBU s s') (hl : s.Live) :
    ∃ t t', Machine.step s = .next t ∧ Machine.step s' = .next t' ∧ SameButBU t t' := by
  have hl' : s'.Live := h.live hl
  cases hf : s.fetched with
  | none =>
    have hf' : s'.fetched = none := h.fetched ▸ hf
    exact ⟨_, _, step_of_unmapped hl hf, step_of_unmapped hl' hf',
      h.afterFetch.halt (congrArg₂ HaltCause.invalidOpcode h.fetch0 h.cpu_pc)⟩
  | some i =>
    have hf' : s'.fetched = some i := h.fetched ▸ hf
    cases hw : i.wellFormed s.params with
    | false =>
      have hw' : i.wellFormed s'.params = false := h.params ▸ hw
      exact ⟨_, _, step_of_left_out hl hf hw, step_of_left_out hl' hf' hw',
        h.afterFetch.halt (congrArg₂ HaltCause.unimplemented h.fetch0 h.cpu_pc)⟩
    | true =>
      have hw' : i.wellFormed s'.params = true := h.params ▸ hw
      obtain ⟨t, t', ht, ht', hr⟩ := (h.afterFetch.advancePc i).exec i
      exact ⟨_, _, step_of_exec hl hf hw ht, step_of_exec hl' hf' hw' ht',
        h.params ▸ hr.finish _⟩

end SameButBU

/-- Settles O36: `SameButBU` is a congruence for the step. -/
theorem storedBAndUAreNeverObserved : Obligations.StoredBAndUAreNeverObserved := by
  intro s s' t h ht
  obtain ⟨u, u', hu, hu', hr⟩ := h.step (live_of_step ht)
  obtain rfl := next_inj hu ht
  exact ⟨u', hu', hr⟩

end Sys2Proof.Machine
end

section
/-! PROOFS of the family 20_memory.md. The bus decoder, one rule per range for the byte read, the
state a read leaves and the state a write leaves; the PPU's memories and the cartridge as reads after
writes; then which bus writes reach the PPU's memories, carried over to every instruction by the
inversion lemma `exec_accesses`. -/

namespace Sys2Proof.Machine

/-! ### Ports by number (20_memory.md R56) -/

/-- The number r of a port, at $2000 + r. -/
def Port.number : Port → Nat
  | .ctrl => 0
  | .mask => 1
  | .status => 2
  | .oamAddr => 3
  | .oamData => 4
  | .scroll => 5
  | .addr => 6
  | .data => 7

theorem portOf_number (a : Word) : (portOf a).number = a.toNat % 8 := by
  have hk : a.toNat % 8 < 8 := Nat.mod_lt _ (by decide)
  unfold portOf
  generalize a.toNat % 8 = k at hk ⊢
  interval_cases k <;> rfl

theorem portOf_ofNat_number (r : Port) : portOf (BitVec.ofNat 16 r.number) = r := by
  cases r <;> rfl

theorem Port.number_injective : Function.Injective Port.number :=
  Function.LeftInverse.injective (g := fun n => portOf (BitVec.ofNat 16 n)) portOf_ofNat_number

/-- The port of an address is the one whose number is the address modulo 8. -/
theorem portOf_eq_iff {a : Word} {r : Port} : portOf a = r ↔ a.toNat % 8 = r.number := by
  rw [← portOf_number]
  exact Port.number_injective.eq_iff.symm

theorem portOf_congr {a b : Word} (h : a.toNat % 8 = b.toNat % 8) : portOf a = portOf b :=
  portOf_eq_iff.2 (h.trans (portOf_number b).symm)

/-- Only the reads of ports 2 and 7 change the PPU (20_memory.md R64). -/
theorem Ppu.portTouch_of_ne (ps : Params) (c : Cart) (u : Ppu) {r : Port} (hs : r ≠ .status)
    (hd : r ≠ .data) : u.portTouch ps c r = u := by
  cases r with
  | status => exact absurd rfl hs
  | data => exact absurd rfl hd
  | ctrl | mask | oamAddr | oamData | scroll | addr => rfl

/-! ### The bus decoder, one rule per range (20_memory.md R53, R54) -/

section Decoder

variable {a : Word}

theorem State.peek_port (s : State) (h : 0x2000 ≤ a.toNat) (h' : a.toNat < 0x4000) :
    s.peek a = s.ppu.portPeek s.params s.cart (portOf a) := by
  rw [State.peek, if_neg (by omega), if_pos (by omega)]

theorem State.touch_port (s : State) (h : 0x2000 ≤ a.toNat) (h' : a.toNat < 0x4000) :
    s.touch a = { s with ppu := s.ppu.portTouch s.params s.cart (portOf a) } := by
  rw [State.touch, if_neg (by omega), if_pos (by omega)]

theorem State.memWrite_port (s : State) (v : Byte) (h : 0x2000 ≤ a.toNat) (h' : a.toNat < 0x4000) :
    s.memWrite a v = s.portWrite (portOf a) v := by
  rw [State.memWrite, if_neg (by omega), if_pos (by omega)]

theorem State.peek_ctrl (s : State) (h : a.toNat = 0x4016) : s.peek a = s.ctrl.peek := by
  rw [State.peek, if_neg (by omega), if_neg (by omega), if_pos (by omega), if_pos h]

theorem State.touch_ctrl (s : State) (h : a.toNat = 0x4016) :
    s.touch a = { s with ctrl := s.ctrl.touch } := by
  rw [State.touch, if_neg (by omega), if_neg (by omega), if_pos h]

theorem State.memWrite_ctrl (s : State) (v : Byte) (h : a.toNat = 0x4016) :
    s.memWrite a v = { s with ctrl := s.ctrl.write v } := by
  rw [State.memWrite, if_neg (by omega), if_neg (by omega), if_neg (by omega), if_pos h]

theorem State.memWrite_dma (s : State) (v : Byte) (h : a.toNat = 0x4014) :
    s.memWrite a v = s.oamDma v := by
  rw [State.memWrite, if_neg (by omega), if_neg (by omega), if_pos h]

/-- Inert I/O and unmapped space read $00 (20_memory.md R57). -/
theorem State.peek_inert (s : State) (h : 0x4000 ≤ a.toNat) (h' : a.toNat < 0x6000)
    (hc : a.toNat ≠ 0x4016) : s.peek a = 0 := by
  rw [State.peek, if_neg (by omega), if_neg (by omega), if_neg hc, if_pos (by omega : a.toNat ≤ 0x5FFF),
    ite_self]

theorem State.memWrite_inert (s : State) (v : Byte) (h : 0x4000 ≤ a.toNat) (h' : a.toNat < 0x6000)
    (hd : a.toNat ≠ 0x4014) (hc : a.toNat ≠ 0x4016) : s.memWrite a v = s := by
  rw [State.memWrite, if_neg (by omega), if_neg (by omega), if_neg hd, if_neg hc, if_pos (by omega)]

theorem State.peek_sram (s : State) (h : 0x6000 ≤ a.toNat) (h' : a.toNat < 0x8000) :
    s.peek a = s.cart.sramRead (a.toNat - 0x6000) := by
  rw [State.peek, if_neg (by omega), if_neg (by omega), if_neg (by omega), if_neg (by omega),
    if_pos (by omega)]

theorem State.memWrite_sram (s : State) (v : Byte) (h : 0x6000 ≤ a.toNat) (h' : a.toNat < 0x8000) :
    s.memWrite a v = { s with cart := s.cart.sramWrite (a.toNat - 0x6000) v } := by
  rw [State.memWrite, if_neg (by omega), if_neg (by omega), if_neg (by omega), if_neg (by omega),
    if_neg (by omega), if_pos (by omega)]

end Decoder

theorem Ctrl.touch_eq (c : Ctrl) : c.touch =
    { c with index := if c.strobe = false ∧ c.index < 8 then c.index + 1 else c.index } := by
  obtain ⟨strobe, index, buttons⟩ := c
  cases strobe with
  | true => rfl
  | false => by_cases h : index < 8 <;> simp [Ctrl.touch, h]

/-- A read of a port other than 2 and 7 leaves the whole machine as it was. -/
theorem State.touch_plain_port (s : State) {a : Word} (h : 0x2000 ≤ a.toNat) (h' : a.toNat < 0x4000)
    (hs : a.toNat % 8 ≠ 2) (hd : a.toNat % 8 ≠ 7) : s.touch a = s := by
  rw [s.touch_port h h', Ppu.portTouch_of_ne _ _ _ (mt portOf_eq_iff.1 hs) (mt portOf_eq_iff.1 hd)]

theorem State.touch_status_port (s : State) {a : Word} (h : 0x2000 ≤ a.toNat) (h' : a.toNat < 0x4000)
    (hr : a.toNat % 8 = 2) :
    s.touch a = { s with ppu := if s.params.statusReadClears then
      { s.ppu with vbl := false, scrollLatch := false, addrLatch := false } else s.ppu } := by
  rw [s.touch_port h h', (portOf_eq_iff (r := .status)).2 hr]
  rfl

theorem Ppu.bufferAfter_eq (ps : Params) (c : Cart) (u : Ppu) :
    u.bufferAfter ps c = match ps.ppuDataMode with
      | .direct => u.readBuf
      | .buffered => u.read c
          (if 0x3F00 ≤ u.vaddr.toNat then (u.vaddr &&& 0x2FFF).toNat else u.vaddr.toNat) := by
  unfold Ppu.bufferAfter
  cases ps.ppuDataMode
  · rfl
  · exact (apply_ite (u.read c) _ _ _).symm

theorem State.touch_data_port (s : State) {a : Word} (h : 0x2000 ≤ a.toNat) (h' : a.toNat < 0x4000)
    (hr : a.toNat % 8 = 7) :
    s.touch a = { s with ppu := { s.ppu with
      readBuf := s.ppu.bufferAfter s.params s.cart, vaddr := s.ppu.vaddr + s.ppu.increment } } := by
  rw [s.touch_port h h', (portOf_eq_iff (r := .data)).2 hr]
  rfl

/-- Settles O37: each range by its rule of the decoder, the port reads by the port's number. -/
theorem busReadDecoder : Obligations.BusReadDecoder := by
  intro s a
  refine ⟨fun h => ?_, fun h h' => ⟨s.peek_port h h', s.touch_plain_port h h', s.touch_status_port h h',
    fun hr => ?_⟩, fun h => ?_, fun h h' hc => ?_, fun h h' => ?_, fun h => ?_⟩
  · exact ⟨s.peek_wram a (by omega), s.touch_of_plain a (by omega) (by omega)⟩
  · rw [s.touch_data_port h h' hr, Ppu.bufferAfter_eq]
    rfl
  · rw [s.touch_ctrl h, Ctrl.touch_eq]
    exact ⟨s.peek_ctrl h, rfl⟩
  · exact ⟨s.peek_inert h h' hc, s.touch_of_plain a (by omega) hc⟩
  · exact ⟨s.touch_of_plain a (by omega) (by omega), s.peek_sram h h'⟩
  · exact ⟨s.peek_rom a h, s.touch_of_plain a (by omega) (by omega)⟩

/-- Settles O38: each range by its rule of the decoder. -/
theorem busWriteDecoder : Obligations.BusWriteDecoder := by
  intro s a v
  refine ⟨fun h => s.memWrite_wram a v (by omega), s.memWrite_port v, s.memWrite_dma v,
    s.memWrite_ctrl v, s.memWrite_inert v, fun h h' => ?_, s.memWrite_rom a v⟩
  rw [s.memWrite_sram v h h', Cart.sramWrite]
  split <;> rfl

/-- Settles O39: work RAM by one cell's read after a write, the ports by the port's number. -/
theorem workRamAndPortsAreMirrored : Obligations.WorkRamAndPortsAreMirrored := by
  refine ⟨fun s a b v ha hb => ?_, fun s a v h h' rp hrp hr => ?_, fun s a b v h h' g g' hab => ?_⟩
  · rw [s.memWrite_wram a v (by omega), State.peek_wram _ b (by omega), s.peek_wram b (by omega),
      Memory.read_write]
    simp only [eq_comm]
  · have number : ∀ rp ∈ [(0, Port.ctrl), (1, .mask), (2, .status), (3, .oamAddr), (4, .oamData),
        (5, .scroll), (6, .addr), (7, .data)], rp.1 = rp.2.number := by decide
    have hp : portOf a = rp.2 := portOf_eq_iff.2 (hr.trans (number rp hrp))
    rw [s.memWrite_port v h h', s.peek_port h h', s.touch_port h h', hp]
    exact ⟨rfl, rfl, rfl, rfl⟩
  · rw [s.memWrite_port v h h', s.memWrite_port v g g', s.peek_port h h', s.peek_port g g',
      s.touch_port h h', s.touch_port g g', portOf_congr hab]
    exact ⟨rfl, rfl, rfl⟩

/-! ### The PPU's memories (20_memory.md R65 to R68) -/

/-- Two nametable addresses name one byte exactly when the physical table and the offset agree. -/
theorem ciramKey_eq_iff (c : Cart) (a b : Nat) :
    ciramKey c a = ciramKey c b ↔
      c.ntPhys ((a - 0x2000) / 0x400 % 4) = c.ntPhys ((b - 0x2000) / 0x400 % 4) ∧
        a % 0x400 = b % 0x400 := by
  unfold ciramKey
  omega

section PpuMemory

variable (c : Cart) (u : Ppu) (v : Byte)

theorem Ppu.palRead_palWrite (p q : Nat) :
    (u.palWrite p v).palRead q =
      if p = q ∨ (p % 4 = 0 ∧ q % 4 = 0) then v else u.palRead q := by
  unfold Ppu.palWrite Ppu.palRead
  by_cases hp : p % 4 = 0 <;> by_cases hq : q % 4 = 0
  · simp [hp, hq]
  · have hpq : p ≠ q := by rintro rfl; exact hq hp
    simp [hp, hq, hpq]
  · have hpq : p ≠ q := by rintro rfl; exact hp hq
    simp [hp, hq, hpq]
  · simp [hp, hq, Memory.read_write, eq_comm]

theorem Ppu.palWrite_ciram (p : Nat) : (u.palWrite p v).ciram = u.ciram := by
  unfold Ppu.palWrite
  split <;> rfl

/-! One rule per region, for addresses already reduced to 14 bits. -/

variable {a : Nat}

theorem Ppu.read_chr (h : a < 0x2000) : u.read c a = c.chrRead a := by
  simp only [Ppu.read, Nat.mod_eq_of_lt (by omega : a < 0x4000)]
  rw [if_pos (by omega)]

theorem Ppu.read_nametable (h : 0x2000 ≤ a) (h' : a < 0x3F00) :
    u.read c a = u.ciram.read (ciramKey c a) := by
  simp only [Ppu.read, Nat.mod_eq_of_lt (by omega : a < 0x4000)]
  rw [if_neg (by omega), if_pos (by omega)]

theorem Ppu.read_palette (h : 0x3F00 ≤ a) (h' : a < 0x4000) : u.read c a = u.palRead (a % 32) := by
  simp only [Ppu.read, Nat.mod_eq_of_lt h']
  rw [if_neg (by omega), if_neg (by omega)]

theorem Ppu.writeOwn_chr (h : a < 0x2000) : u.writeOwn c a v = u := by
  simp only [Ppu.writeOwn, Nat.mod_eq_of_lt (by omega : a < 0x4000)]
  rw [if_pos (by omega)]

theorem Ppu.writeOwn_nametable (h : 0x2000 ≤ a) (h' : a < 0x3F00) :
    u.writeOwn c a v = { u with ciram := u.ciram.write (ciramKey c a) v } := by
  simp only [Ppu.writeOwn, Nat.mod_eq_of_lt (by omega : a < 0x4000)]
  rw [if_neg (by omega), if_pos (by omega)]

theorem Ppu.writeOwn_palette (h : 0x3F00 ≤ a) (h' : a < 0x4000) :
    u.writeOwn c a v = u.palWrite (a % 32) v := by
  simp only [Ppu.writeOwn, Nat.mod_eq_of_lt h']
  rw [if_neg (by omega), if_neg (by omega)]

theorem Ppu.writeCart_chr (h : a < 0x2000) : Ppu.writeCart c a v = c.chrWrite a v := by
  simp only [Ppu.writeCart, Nat.mod_eq_of_lt (by omega : a < 0x4000)]
  rw [if_pos (by omega)]

theorem Ppu.writeCart_own (h : 0x2000 ≤ a) (h' : a < 0x4000) : Ppu.writeCart c a v = c := by
  simp only [Ppu.writeCart, Nat.mod_eq_of_lt h']
  rw [if_neg (by omega)]

/-! Reads after writes, region by region. -/

variable {b : Nat}

theorem Ppu.read_writeOwn_nametable (h : 0x2000 ≤ a) (h' : a < 0x3F00) (g : 0x2000 ≤ b)
    (g' : b < 0x3F00) :
    (u.writeOwn c a v).read c b = if ciramKey c a = ciramKey c b then v else u.read c b := by
  rw [Ppu.writeOwn_nametable c u v h h', Ppu.read_nametable c _ g g', Ppu.read_nametable c _ g g',
    Memory.read_write]
  simp only [eq_comm]

theorem Ppu.read_writeOwn_palette (h : 0x3F00 ≤ a) (h' : a < 0x4000) (g : 0x3F00 ≤ b)
    (g' : b < 0x4000) :
    (u.writeOwn c a v).read c b =
      if a % 32 = b % 32 ∨ (a % 4 = 0 ∧ b % 4 = 0) then v else u.read c b := by
  rw [Ppu.writeOwn_palette c u v h h', Ppu.read_palette c _ g g', Ppu.read_palette c _ g g',
    Ppu.palRead_palWrite, Nat.mod_mod_of_dvd a (by decide), Nat.mod_mod_of_dvd b (by decide)]

/-- The nametables and the character data are read without a look at the palette. -/
theorem Ppu.read_writeOwn_of_palette (h : 0x3F00 ≤ a) (h' : a < 0x4000) (g : b < 0x3F00) :
    (u.writeOwn c a v).read c b = u.read c b := by
  rw [Ppu.writeOwn_palette c u v h h']
  by_cases hb : b < 0x2000
  · rw [Ppu.read_chr c _ hb, Ppu.read_chr c _ hb]
  · rw [Ppu.read_nametable c _ (by omega) g, Ppu.read_nametable c _ (by omega) g, Ppu.palWrite_ciram]

/-- The palette is read without a look at the nametables. -/
theorem Ppu.palette_read_writeOwn (h : a < 0x3F00) (g : 0x3F00 ≤ b) (g' : b < 0x4000) :
    (u.writeOwn c a v).read c b = u.read c b := by
  by_cases ha : a < 0x2000
  · rw [Ppu.writeOwn_chr c u v ha]
  · rw [Ppu.writeOwn_nametable c u v (by omega) h, Ppu.read_palette c _ g g',
      Ppu.read_palette c _ g g']
    rfl

end PpuMemory

/-- Settles O46: each pair of regions by its read after a write; the mirroring is `ciramKey_eq_iff`,
the shared backdrop `Ppu.palRead_palWrite`. -/
theorem ppuMemoryReadAfterWrite : Obligations.PpuMemoryReadAfterWrite := by
  intro c u a b v
  refine ⟨by simp only [Ppu.read, Nat.mod_mod], by simp only [Ppu.writeOwn, Nat.mod_mod],
    by simp only [Ppu.writeCart, Nat.mod_mod], fun ha hb => ⟨Ppu.read_chr c _, fun h => ?_,
      fun h => Ppu.writeCart_own c v h ha, fun h h' g g' => ?_,
      fun h g => Ppu.read_writeOwn_palette c u v h ha g hb, ?_⟩⟩
  · exact ⟨Ppu.writeOwn_chr c u v h, Ppu.writeCart_chr c v h⟩
  · simp only [Ppu.read_writeOwn_nametable c u v h h' g g', ciramKey_eq_iff, Cart.ntPhys]
  · rintro (⟨h, g⟩ | ⟨h, g⟩)
    · exact Ppu.palette_read_writeOwn c u v h g hb
    · exact Ppu.read_writeOwn_of_palette c u v h ha g

/-! ### The cartridge (20_memory.md R59 to R61, R66) -/

theorem Memory.ofCells_concat (n : Nat) (cells : List Host.Cell) (c : Host.Cell) :
    Memory.ofCells n (cells ++ [c]) =
      if c.1 < n then (Memory.ofCells n cells).write c.1 c.2 else Memory.ofCells n cells := by
  simp [Memory.ofCells]

/-- The cells of a byte list hold its bytes, and $00 past its end. -/
theorem Memory.read_ofCells_zipIdx (n : Nat) (bs : List Byte) (h : bs.length ≤ n) (i : Nat) :
    (Memory.ofCells n (bs.zipIdx.map fun c => (c.2, c.1))).read i = bs.getD i 0 := by
  induction bs using List.reverseRecOn with
  | nil => rfl
  | append_singleton bs b ih =>
    have hn : bs.length < n := by simpa using h
    rw [List.zipIdx_append, List.map_append]
    simp only [List.zipIdx_singleton, List.map_singleton, Nat.zero_add, Memory.ofCells_concat, hn,
      if_true, Memory.read_write, ih hn.le]
    rcases lt_trichotomy i bs.length with hi | rfl | hi
    · rw [if_neg hi.ne, List.getD_append _ _ _ _ hi]
    · simp
    · rw [if_neg hi.ne', List.getD_eq_default _ _ hi.le, List.getD_eq_default _ _ (by simpa using hi)]

/-- `IMAGE[i]` of the image of a byte list is the list's byte (log 11). -/
@[simp] theorem Image.get_ofBytes (bs : List Byte) (i : Nat) :
    (Image.ofBytes bs).get i = bs.getD i 0 := by
  have hr : (Image.ofBytes bs).bytes.read i = bs.getD i 0 :=
    Memory.read_ofCells_zipIdx bs.length bs le_rfl i
  rw [Image.get, hr]
  split_ifs with h
  · rfl
  · exact (List.getD_eq_default _ _ (not_lt.1 h)).symm

/-- No image, or one shorter than a header, leaves the cartridge-less store (20_memory.md R61). -/
theorem insertCartridge_of_short {image : Option Image} (h : ∀ im ∈ image, im.length < 16)
    (sram chr : Memory) :
    insertCartridge image sram chr = { Cart.absent with sram := sram, chrRam := chr } := by
  cases image with
  | none => rfl
  | some im => exact if_pos (h im rfl)

/-- Any other image is present, with its header fields from bytes 4 to 7 (20_memory.md R59). -/
theorem insertCartridge_ofBytes {bs : List Byte} (h : 16 ≤ bs.length) (sram chr : Memory) :
    insertCartridge (some (Image.ofBytes bs)) sram chr =
      { present := true
        image := Image.ofBytes bs
        prgBanks := bs.getD 4 0
        chrBanks := bs.getD 5 0
        mirrorFlag := (bs.getD 6 0).getLsbD 0
        battery := (bs.getD 6 0).getLsbD 1
        trainer := (bs.getD 6 0).getLsbD 2
        mapper := (bs.getD 7 0 &&& 0xF0) ||| (bs.getD 6 0 >>> 4)
        sram := sram
        chrRam := if bs.getD 5 0 = 0 then chr else [] } := by
  have hlen : ¬ (Image.ofBytes bs).length < 16 := not_lt.2 h
  simp only [insertCartridge, if_neg hlen, Image.get_ofBytes]

section CartridgeReads

variable {c : Cart}

theorem Cart.prgRead_of_present (h : c.present = true) (a : Word) :
    c.prgRead a = if 16384 * c.prgBanks.toNat ≤ c.prgOffset a then 0
      else c.image.get (c.prgStart + c.prgOffset a) := by
  simp [Cart.prgRead, h]

theorem Cart.chrRead_of_present (h : c.present = true) (x : Nat) :
    c.chrRead x = if c.chrBanks = 0 then c.chrRam.read x else c.image.get (c.chrStart + x) := by
  simp [Cart.chrRead, h]

theorem Cart.chrWrite_of_present (h : c.present = true) (x : Nat) (v : Byte) :
    c.chrWrite x v = if c.chrBanks = 0 then { c with chrRam := c.chrRam.write x v } else c := by
  simp [Cart.chrWrite, h]

end CartridgeReads

/-- Settles O47: the store of a short image is the cartridge-less one, and the fields of any other
are bytes of the list by `Image.get_ofBytes`. -/
theorem cartridgeReadsAndHeader : Obligations.CartridgeReadsAndHeader := by
  intro bs sram chr a x v _ _
  refine ⟨fun im him hshort => ?_, fun hlong => ?_⟩
  · have hlen : ∀ i ∈ im, i.length < 16 := by
      rintro i rfl
      obtain rfl : i = Image.ofBytes bs := by simpa using him
      exact hshort.resolve_left (by simp)
    rw [insertCartridge_of_short hlen]
    exact ⟨rfl, rfl, rfl, rfl, rfl, rfl, rfl, rfl, rfl, rfl, rfl, rfl, rfl⟩
  · rw [insertCartridge_ofBytes hlong]
    refine ⟨rfl, rfl, rfl, rfl, rfl, rfl, rfl, ?_, ?_, ?_⟩
    · rw [Cart.prgRead_of_present rfl, Image.get_ofBytes]
      rfl
    · rw [Cart.chrRead_of_present rfl, Image.get_ofBytes]
      exact ite_congr rfl (fun h5 => by simp only [h5, if_true]) fun _ => rfl
    · rw [Cart.chrWrite_of_present rfl]
      exact ite_congr rfl (fun h5 => by simp only [h5, if_true]) fun _ => rfl

/-! ### Who reaches the PPU's memory (20_memory.md R69) -/

theorem Ppu.portWrite_oam (c : Cart) (u : Ppu) {r : Port} (h : r ≠ .oamData) (v : Byte) :
    (u.portWrite c r v).oam = u.oam := by
  cases r with
  | oamData => exact absurd rfl h
  | ctrl | mask | status | oamAddr => rfl
  | scroll => simp only [Ppu.portWrite, Ppu.scrollWrite]; split <;> rfl
  | addr => simp only [Ppu.portWrite, Ppu.addrWrite]; split <;> rfl
  | data => simp only [Ppu.portWrite, Ppu.writeOwn, Ppu.palWrite]; split_ifs <;> rfl

/-- The memories behind port 7: the nametables, the palette, the backdrop and CHR RAM. -/
def State.videoMemory (s : State) : Memory × Memory × Byte × Memory :=
  (s.ppu.ciram, s.ppu.pal, s.ppu.palBd, s.cart.chrRam)

theorem State.portWrite_videoMemory (s : State) {r : Port} (h : r ≠ .data) (v : Byte) :
    (s.portWrite r v).videoMemory = s.videoMemory := by
  cases r with
  | data => exact absurd rfl h
  | ctrl | mask | status | oamAddr | oamData => rfl
  | scroll => simp only [State.portWrite, Ppu.portWrite, Ppu.scrollWrite]; split <;> rfl
  | addr => simp only [State.portWrite, Ppu.portWrite, Ppu.addrWrite]; split <;> rfl

theorem Ppu.portWriteCart_image (c : Cart) (u : Ppu) (r : Port) (v : Byte) :
    (u.portWriteCart c r v).image = c.image := by
  cases r with
  | data => simp only [Ppu.portWriteCart, Ppu.writeCart, Cart.chrWrite]; split_ifs <;> rfl
  | ctrl | mask | status | oamAddr | oamData | scroll | addr => rfl

theorem Cart.sramWrite_image (c : Cart) (i : Nat) (v : Byte) : (c.sramWrite i v).image = c.image := by
  unfold Cart.sramWrite
  split <;> rfl

theorem Cart.sramWrite_chrRam (c : Cart) (i : Nat) (v : Byte) :
    (c.sramWrite i v).chrRam = c.chrRam := by
  unfold Cart.sramWrite
  split <;> rfl

/-- The bus address `a` is port `r` or a mirror of it. -/
abbrev OnPort (a : Word) (r : Nat) : Prop := 0x2000 ≤ a.toNat ∧ a.toNat < 0x4000 ∧ a.toNat % 8 = r

theorem State.memWrite_ppu_oam (s : State) {a : Word} (hp : ¬ OnPort a 4) (hd : a ≠ 0x4014) (v : Byte) :
    (s.memWrite a v).ppu.oam = s.ppu.oam := by
  unfold State.memWrite
  split_ifs with hram hport hdma
  · rfl
  · have hr : portOf a ≠ .oamData := fun h => hp ⟨by omega, by omega, portOf_eq_iff.1 h⟩
    exact Ppu.portWrite_oam s.cart s.ppu hr v
  · exact absurd (BitVec.eq_of_toNat_eq hdma) hd
  all_goals rfl

theorem State.memWrite_videoMemory (s : State) {a : Word} (hp : ¬ OnPort a 7) (v : Byte) :
    (s.memWrite a v).videoMemory = s.videoMemory := by
  unfold State.memWrite
  split_ifs with hram hport hdma
  · rfl
  · have hr : portOf a ≠ .data := fun h => hp ⟨by omega, by omega, portOf_eq_iff.1 h⟩
    exact s.portWrite_videoMemory hr v
  · simp [State.videoMemory, State.oamDma]
  · rfl
  · rfl
  · simp only [State.videoMemory, Cart.sramWrite_chrRam]
  · rfl

/-- No bus write reaches the cartridge image (20_memory.md R62). -/
theorem State.memWrite_image (s : State) (a : Word) (v : Byte) :
    (s.memWrite a v).cart.image = s.cart.image := by
  unfold State.memWrite
  split_ifs
  · rfl
  · exact Ppu.portWriteCart_image _ _ _ _
  · rw [State.oamDma_cart]
  · rfl
  · rfl
  · exact Cart.sramWrite_image _ _ _
  · rfl

/-- What no bus read changes, and no bus write at the addresses an instruction stores to, the
instruction does not change. -/
theorem Accesses.keeps {α : Type} {f : State → α} (hcpu : ∀ s c, f { s with cpu := c } = f s)
    (hread : ∀ s a, f (s.touch a) = f s) {s t : State} {l : List Word} (h : Accesses s l t)
    (hwrite : ∀ a ∈ l, ∀ s v, f (s.memWrite a v) = f s) : f t = f s := by
  induction h with
  | none => rfl
  | cpu c _ ih => rw [hcpu, ih hwrite]
  | read a _ ih => rw [hread, ih hwrite]
  | write a v _ ih =>
    rw [hwrite a (by simp), ih fun b hb => hwrite b (by simp [hb])]

/-- Settles O56: a dot only reads the PPU's store (`Ppu.stepN_same`), and an instruction reaches those
memories only by the bus writes `exec_accesses` lists. -/
theorem ppuMemoryIsReachedOnlyThroughItsPorts :
    Obligations.PpuMemoryIsReachedOnlyThroughItsPorts := by
  refine ⟨fun c u n => ?_, fun i s t ht => ?_⟩
  · have h := Ppu.stepN_same c n u
    exact ⟨h.oam, h.ciram, h.pal, h.palBd, h.ctrl, h.mask, h.latch, h.lastWrite, h.oamAddr, h.scrollX,
      h.scrollY, h.scrollLatch, h.vaddr, h.addrHi, h.addrLatch, h.readBuf⟩
  · have h := exec_accesses ht
    refine ⟨fun hport hdma => ?_, fun hport => ?_, ?_⟩
    · exact h.keeps (f := fun s => s.ppu.oam) (fun _ _ => rfl) State.touch_ppu_oam fun a ha s v =>
        s.memWrite_ppu_oam (fun hp => hport ⟨a, ha, hp⟩) (fun e => hdma (e ▸ ha)) v
    · have hv : t.videoMemory = s.videoMemory :=
        h.keeps (fun _ _ => rfl) (fun s a => by simp [State.videoMemory]) fun a ha s v =>
          s.memWrite_videoMemory (fun hp => hport ⟨a, ha, hp⟩) v
      simpa only [State.videoMemory, Prod.mk.injEq] using hv
    · exact h.keeps (f := fun s => s.cart.image) (fun _ _ => rfl) (fun s a => by rw [State.touch_cart])
        fun a _ s v => s.memWrite_image a v

/-! ### Power-up with nothing (70_reset_and_hazards.md R204, R205) -/

theorem Ppu.reset_inv : Ppu.reset.Inv where
  oam := Memory.wf_nil _
  ciram := Memory.wf_nil _
  pal := Memory.wf_nil _
  palBackdrop := by decide
  fb := by decide
  frame := by decide
  scanline := by decide
  dot := by decide
  selCount := by decide
  scrollY := by decide
  ctrlLatch := rfl
  maskLatch := rfl
  guard := by decide
  vblGuard := by decide

theorem State.reset_inv : State.reset.Inv where
  wram := Memory.wf_nil _
  ctrlIndex := Nat.zero_le _
  cart := insertCartridge_inv none (by simp) (Memory.wf_nil _) (Memory.wf_nil _)
  ppu := Ppu.reset_inv
  stop := by decide

@[simp] theorem powerUp_cart (inp : PowerUpInput) : (powerUp inp).cart = inp.cart := rfl

theorem PowerUpInput.cart_of_short {inp : PowerUpInput} (h : ∀ im ∈ inp.image, im.1 < 16) :
    inp.cart = { Cart.absent with
      sram := Memory.ofCells 8192 (inp.savedSram.getD inp.mem.sram)
      chrRam := Memory.ofCells 8192 inp.mem.chrRam } := by
  refine insertCartridge_of_short (fun im him => ?_) _ _
  obtain ⟨cells, hc, rfl⟩ := Option.map_eq_some_iff.1 him
  exact h cells hc

/-- Settles O58: power-up with nothing computes to `State.reset`; a short image leaves the
cartridge-less store. -/
theorem resetIsPowerUpWithNothing : Obligations.ResetIsPowerUpWithNothing := by
  refine ⟨rfl, rfl, rfl, rfl, ⟨rfl, rfl⟩, State.reset_inv, fun inp h => ?_⟩
  rw [powerUp_cart, PowerUpInput.cart_of_short h]
  exact ⟨rfl, rfl⟩

end Sys2Proof.Machine
end

section
/-! PROOFS of the family 30_encoding.md. The branch displacement as a signed number; then which
opcode bytes are mapped, and what a step answers for each kind of opcode byte. -/

namespace Sys2Proof.Machine

/-! ### The branch displacement (30_encoding.md R85) -/

theorem relTarget_eq_iff (pc target : Word) (d : Byte) :
    relTarget pc d = target ↔ (target - (pc + 2)).toInt = d.toInt := by
  rw [relTarget, eq_comm, ← sub_eq_iff_eq_add', ← BitVec.toInt_inj,
    BitVec.toInt_signExtend_of_le (by decide)]

theorem relByte_isSome_iff (pc target : Word) :
    (relByte pc target).isSome = true ↔
      -128 ≤ (target - (pc + 2)).toInt ∧ (target - (pc + 2)).toInt ≤ 127 := by
  simp [relByte]

/-- A byte's signed value lies in -128..127, and there it determines the byte. -/
theorem relByte_eq_some_iff (pc target : Word) (d : Byte) :
    relByte pc target = some d ↔ (target - (pc + 2)).toInt = d.toInt := by
  have hlo : -128 ≤ d.toInt := d.le_toInt
  have hhi : d.toInt < 128 := d.toInt_lt
  rw [relByte]
  split
  next h =>
    rw [Option.some_inj, ← BitVec.toInt_inj,
      BitVec.toInt_ofInt_eq_self (by decide) h.1 (Int.lt_add_one_of_le h.2)]
  next h => exact iff_of_false (Option.some_ne_none d).symm fun e => h (by omega)

/-- Settles O28: both the byte an assembler picks and the target it is written with are determined
by the distance as a signed number. -/
theorem branchDisplacementIsTheDistanceToTheTarget :
    Obligations.BranchDisplacementIsTheDistanceToTheTarget := by
  refine fun pc target d => ⟨relByte_isSome_iff pc target, ?_, fun s hpc => ?_⟩
  · rw [relByte_eq_some_iff, relTarget_eq_iff]
  · rw [State.branchTarget, hpc, relTarget]

/-! ### Mapped and unmapped opcode bytes (30_encoding.md R81, R82) -/

/-- Whether an opcode byte is mapped does not depend on the bytes after it. -/
theorem decode3_isNone (op b1 b2 : Byte) : (decode3 op b1 b2).isNone = (decode3 op 0 0).isNone := by
  unfold decode3
  split <;>
    (simp only [decodeRow0, decodeRow1, decodeRow2, decodeRow3, decodeRow4, decodeRow5, decodeRow6,
      decodeRow7, decodeRow8, decodeRow9, decodeRowA, decodeRowB, decodeRowC, decodeRowD, decodeRowE,
      decodeRowF]
     split <;> rfl)

theorem decode3_eq_none_iff (op b1 b2 : Byte) : decode3 op b1 b2 = none ↔ decode3 op 0 0 = none := by
  rw [← Option.isNone_iff_eq_none, decode3_isNone, Option.isNone_iff_eq_none]

theorem wellFormed_fetched_eq_false_iff {s : State} {i : Instr} (hf : s.fetched = some i) :
    i.wellFormed s.params = false ↔ s.fetch0 ∈ s.params.unimplemented := by
  rw [wellFormed_eq_false_iff, opcode_of_decode3 hf]

/-- A step on a mapped opcode byte of `EXEC_SET` does not halt. -/
theorem step_next_of_wellFormed {s : State} {i : Instr} (hl : s.Live) (hf : s.fetched = some i)
    (hw : i.wellFormed s.params = true) : ∃ t, step s = .next t ∧ t.halted = false := by
  obtain ⟨t, ht⟩ := exec_next i (s.afterFetch.advancePc i)
  exact ⟨_, step_of_exec hl hf hw ht, (finish_of_exec_halted ht).trans hl.2⟩

/-- Settles O26: the unmapped bytes by running the decoder on all 256 bytes, which is enough since
the bytes after the opcode do not matter; the halts by the cases of the step. -/
theorem unmappedAndLeftOutOpcodesHalt : Obligations.UnmappedAndLeftOutOpcodesHalt := by
  unfold Obligations.UnmappedAndLeftOutOpcodesHalt
  intro unmapped
  have hmap (op b1 b2 : Byte) : decode3 op b1 b2 = none ↔ op ∈ unmapped := by
    rw [decode3_eq_none_iff]
    revert op
    decide
  have hmapped {s : State} (hu : s.fetch0 ∉ unmapped) : ∃ i, s.fetched = some i :=
    Option.ne_none_iff_exists'.1 (mt (hmap _ _ _).1 hu)
  refine ⟨hmap, fun s hl => ⟨fun hu => ?_, fun hu hx => ?_, fun hu hx => ?_⟩, fun _ => rfl⟩
  · exact step_of_unmapped hl ((hmap _ _ _).2 hu)
  · obtain ⟨i, hf⟩ := hmapped hu
    exact step_of_left_out hl hf ((wellFormed_fetched_eq_false_iff hf).2 hx)
  · obtain ⟨i, hf⟩ := hmapped hu
    exact step_next_of_wellFormed hl hf
      (Bool.eq_true_of_not_eq_false (mt (wellFormed_fetched_eq_false_iff hf).1 hx))

end Sys2Proof.Machine
end

section
/-! PROOFS of the family 40_addressing.md. Every effective address as a number; then the step's cases
told by what the decoder answers on the three bytes it reads. -/

namespace Sys2Proof.Machine

/-! ### Effective addresses (40_addressing.md R92 to R100) -/

@[simp] theorem toNat_zeroPage (b : Byte) : (zeroPage b).toNat = b.toNat :=
  BitVec.toNat_setWidth_of_le (by decide)

theorem toNat_ofHiLo (hi lo : Byte) : (ofHiLo hi lo).toNat = lo.toNat + 256 * hi.toNat := by
  rw [ofHiLo, BitVec.toNat_append, ← Nat.shiftLeft_add_eq_or_of_lt lo.isLt, Nat.shiftLeft_eq]
  omega

/-- Indexing an absolute address wraps at 65536 (40_addressing.md R96, R97, R100). -/
theorem toNat_add_index (w : Word) (i : Byte) :
    (w + i.setWidth 16).toNat = (w.toNat + i.toNat) % 65536 := by
  rw [BitVec.toNat_add, BitVec.toNat_setWidth_of_le (by decide)]

/-- The zero page is work RAM (20_memory.md R53). -/
theorem State.peek_zeroPage (s : State) (b : Byte) : s.peek (zeroPage b) = s.wram.read b.toNat := by
  have hb : (zeroPage b).toNat < 256 := toNat_zeroPage b ▸ b.isLt
  rw [State.peek_wram s _ (by omega), Nat.mod_eq_of_lt (by omega), toNat_zeroPage]

/-- A zero-page pointer's high byte is read at the next byte of the zero page, modulo 256. -/
theorem State.toNat_zpPointer (s : State) (z : Byte) :
    (s.zpPointer z).toNat =
      (s.wram.read z.toNat).toNat + 256 * (s.wram.read ((z.toNat + 1) % 256)).toNat := by
  rw [State.zpPointer, toNat_ofHiLo, State.peek_zeroPage, State.peek_zeroPage, BitVec.toNat_add]
  rfl

/-- Settles O19: a zero-page form is a byte sum, an absolute form a word sum, and an indirect form
the word of a zero-page pointer. -/
theorem effectiveAddressesWrapAsTheModesSay : Obligations.EffectiveAddressesWrapAsTheModesSay := by
  have zp (b i : Byte) : (zeroPage (b + i)).toNat = (b.toNat + i.toNat) % 256 := by
    rw [toNat_zeroPage, BitVec.toNat_add]
  refine fun s b w => ⟨toNat_zeroPage b, zp b s.cpu.x, zp b s.cpu.y, rfl,
    toNat_add_index w s.cpu.x, toNat_add_index w s.cpu.y, ?_, ?_⟩
  · rw [State.ea, State.toNat_zpPointer, BitVec.toNat_add, Nat.mod_add_mod]
  · rw [State.ea, toNat_add_index, State.toNat_zpPointer]

/-! ### The step by its decoded bytes (40_addressing.md R87, R88; 60_exceptions.md R164, R165) -/

theorem decode_of_unmapped {op b1 b2 : Byte} (h : decode3 op b1 b2 = none) :
    decode [op, b1, b2] = .error (.unmapped op) := by
  simp [decode, h]

/-- Three bytes hold every instruction, so decoding them never finds too few. -/
theorem decode_of_mapped {op b1 b2 : Byte} {i : Instr} (h : decode3 op b1 b2 = some i) :
    decode [op, b1, b2] = .ok (i, [b1, b2].drop (i.length - 1)) := by
  simp [decode, h, length_le i]

theorem decode3_of_decode_error {op b1 b2 : Byte} {e : DecodeError}
    (h : decode [op, b1, b2] = .error e) : decode3 op b1 b2 = none := by
  cases hd : decode3 op b1 b2 with
  | none => rfl
  | some i =>
    rw [decode_of_mapped hd] at h
    cases h

theorem decode3_of_decode_ok {op b1 b2 : Byte} {i : Instr} {rest : List Byte}
    (h : decode [op, b1, b2] = .ok (i, rest)) : decode3 op b1 b2 = some i := by
  cases hd : decode3 op b1 b2 with
  | none =>
    rw [decode_of_unmapped hd] at h
    cases h
  | some j =>
    rw [decode_of_mapped hd] at h
    cases h
    rfl

/-- PC is untouched by the fetch reads, so it is advanced from where the opcode byte was read. -/
theorem State.afterFetch_advancePc (s : State) (i : Instr) :
    s.afterFetch.advancePc i =
      { s.afterFetch with
        cpu := { s.afterFetch.cpu with pc := s.cpu.pc + BitVec.ofNat 16 i.length } } := by
  rw [State.advancePc, State.setPc, State.afterFetch_cpu]

/-- Settles O29: the three cases of the step, told by the answer of the decoder. -/
theorem stepRunsTheDecodedInstruction : Obligations.StepRunsTheDecodedInstruction := by
  intro s hl pc s1 s2 s3 op
  refine ⟨fun e he => step_of_unmapped hl (decode3_of_decode_error he), fun i rest hi => ?_⟩
  have hf : s.fetched = some i := decode3_of_decode_ok hi
  refine ⟨step_of_left_out hl hf, fun hw => ?_⟩
  obtain ⟨t, ht⟩ := exec_next i (s.afterFetch.advancePc i)
  have hstep := step_of_exec hl hf hw ht
  rw [opcode_of_decode3 hf] at hstep
  rw [State.afterFetch_advancePc] at ht
  exact ⟨t, ht, hstep⟩

end Sys2Proof.Machine
end

section
/-! PROOFS of the family 41_load_store_transfer.md. The row of an instruction is read off the opcode
table once for all instructions; then each form is its shared operation, and each shared operation
one of the effects the statements name. -/

namespace Sys2Proof.Machine

open Sys2Proof.Claims

/-! ### One form of an instruction -/

theorem length_encode (i : Instr) : (encode i).length = i.length := operand_length i

/-- The row of an instruction with the opcode byte, length and cycle count the table gives it. For a
given constructor all three compute to numerals. -/
theorem encoded_row (i : Instr) : Encoded i i.opcode i.length (baseCycles i.opcode) :=
  ⟨rfl, length_encode i, rfl, rfl⟩

/-- A form completes in `t'` when its meaning is the operation `t` and `t` has the effect `t'`. -/
theorem runs_of_exec {i : Instr} {s t t' : State} (h : exec i s = .next t) (ht : t = t') :
    Runs i i.opcode i.length (baseCycles i.opcode) s t' :=
  ⟨encoded_row i, ht ▸ h⟩

/-! ### Loads (41_load_store_transfer.md R105 to R107) -/

theorem State.loadA_eq_loadedA (s : State) (m : Source) :
    s.loadA m = loadedA (s.afterOperand m) (s.operand m) := State.setA_setZN _ _

theorem State.loadX_eq_loadedX (s : State) (m : Source) :
    s.loadX m = loadedX (s.afterOperand m) (s.operand m) := State.setX_setZN _ _

theorem State.loadY_eq_loadedY (s : State) (m : Source) :
    s.loadY m = loadedY (s.afterOperand m) (s.operand m) := State.setY_setZN _ _

/-- Settles O1: every form of LDA is `loadA` of its operand. -/
theorem ldaLoadsA : Obligations.LdaLoadsA := fun s v b w =>
  ⟨runs_of_exec (exec_ldaImm v s) (s.loadA_eq_loadedA _),
   runs_of_exec (exec_ldaZp b s) (s.loadA_eq_loadedA _),
   runs_of_exec (exec_ldaZpx b s) (s.loadA_eq_loadedA _),
   runs_of_exec (exec_ldaAbs w s) (s.loadA_eq_loadedA _),
   runs_of_exec (exec_ldaAbsx w s) (s.loadA_eq_loadedA _),
   runs_of_exec (exec_ldaAbsy w s) (s.loadA_eq_loadedA _),
   runs_of_exec (exec_ldaIndx b s) (s.loadA_eq_loadedA _),
   runs_of_exec (exec_ldaIndy b s) (s.loadA_eq_loadedA _)⟩

/-- Settles O2: every form of LDX is `loadX` of its operand, and every form of LDY `loadY`. -/
theorem ldxLdyLoadTheIndexRegisters : Obligations.LdxLdyLoadTheIndexRegisters := fun s v b w =>
  ⟨runs_of_exec (exec_ldxImm v s) (s.loadX_eq_loadedX _),
   runs_of_exec (exec_ldxZp b s) (s.loadX_eq_loadedX _),
   runs_of_exec (exec_ldxZpy b s) (s.loadX_eq_loadedX _),
   runs_of_exec (exec_ldxAbs w s) (s.loadX_eq_loadedX _),
   runs_of_exec (exec_ldxAbsy w s) (s.loadX_eq_loadedX _),
   runs_of_exec (exec_ldyImm v s) (s.loadY_eq_loadedY _),
   runs_of_exec (exec_ldyZp b s) (s.loadY_eq_loadedY _),
   runs_of_exec (exec_ldyZpx b s) (s.loadY_eq_loadedY _),
   runs_of_exec (exec_ldyAbs w s) (s.loadY_eq_loadedY _),
   runs_of_exec (exec_ldyAbsx w s) (s.loadY_eq_loadedY _)⟩

/-! ### Stores (41_load_store_transfer.md R108 to R110) -/

theorem State.store_eq_memWrite (s : State) (f : MemForm) (v : Byte) :
    s.store f v = s.memWrite (s.ea f) v := rfl

/-- Settles O3: every form is `store` of its register, which is one bus write. -/
theorem storesMakeOneBusWrite : Obligations.StoresMakeOneBusWrite := fun s b w =>
  ⟨runs_of_exec (exec_staZp b s) (s.store_eq_memWrite _ _),
   runs_of_exec (exec_staZpx b s) (s.store_eq_memWrite _ _),
   runs_of_exec (exec_staAbs w s) (s.store_eq_memWrite _ _),
   runs_of_exec (exec_staAbsx w s) (s.store_eq_memWrite _ _),
   runs_of_exec (exec_staAbsy w s) (s.store_eq_memWrite _ _),
   runs_of_exec (exec_staIndx b s) (s.store_eq_memWrite _ _),
   runs_of_exec (exec_staIndy b s) (s.store_eq_memWrite _ _),
   runs_of_exec (exec_stxZp b s) (s.store_eq_memWrite _ _),
   runs_of_exec (exec_stxZpy b s) (s.store_eq_memWrite _ _),
   runs_of_exec (exec_stxAbs w s) (s.store_eq_memWrite _ _),
   runs_of_exec (exec_styZp b s) (s.store_eq_memWrite _ _),
   runs_of_exec (exec_styZpx b s) (s.store_eq_memWrite _ _),
   runs_of_exec (exec_styAbs w s) (s.store_eq_memWrite _ _)⟩

/-! ### Transfers and index steps (41_load_store_transfer.md R111 to R116, 42_arithmetic_logic.md R130
to R133) -/

/-- Settles O4: each writes one register with Z and N of its new value, but TXS, which writes S
alone. -/
theorem transfersAndIndexSteps : Obligations.TransfersAndIndexSteps := fun s =>
  ⟨runs_of_exec (exec_tax s) (s.setX_setZN _),
   runs_of_exec (exec_tay s) (s.setY_setZN _),
   runs_of_exec (exec_txa s) (s.setA_setZN _),
   runs_of_exec (exec_tya s) (s.setA_setZN _),
   runs_of_exec (exec_tsx s) (s.setX_setZN _),
   runs_of_exec (exec_txs s) rfl,
   runs_of_exec (exec_inx s) (s.setX_setZN _),
   runs_of_exec (exec_iny s) (s.setY_setZN _),
   runs_of_exec (exec_dex s) (s.setX_setZN _),
   runs_of_exec (exec_dey s) (s.setY_setZN _)⟩

end Sys2Proof.Machine
end

section
/-! PROOFS of the family 42_arithmetic_logic.md. The flags of an add one by one, with the test of the
sign bits read as signed overflow and the complement as a borrow; then each form of an instruction as
its shared operation, and each shared operation as the effect the statements name. -/

namespace Sys2Proof.Machine

open Sys2Proof.Claims

/-! ### ADC-core: its result and each flag of its P (42_arithmetic_logic.md R118, R119) -/

theorem toNat_adc (p a m : Byte) :
    (adc p a m).1.toNat = (a.toNat + m.toNat + (p.getLsbD 0).toNat) % 256 :=
  BitVec.toNat_ofNat _ _

/-- `SetZN` writes Z and N, and keeps the other six flags (00_scope.md R9, 10_state.md R28). -/
theorem getFlag_setZN (p v : Byte) (f : Flag) :
    getFlag (setZN p v) f =
      if f = .n then v.getLsbD 7 else if f = .z then decide (v = 0) else getFlag p f := by
  rw [setZN, getFlag_setFlag, getFlag_setFlag, beq_eq_decide]

theorem getFlag_c_adc (p a m : Byte) :
    getFlag (adc p a m).2 .c = decide (255 < a.toNat + m.toNat + (p.getLsbD 0).toNat) := by
  rw [adc, getFlag_setZN, getFlag_setFlag, getFlag_setFlag_same]
  rfl

theorem getFlag_z_adc (p a m : Byte) :
    getFlag (adc p a m).2 .z = decide ((adc p a m).1 = 0) := by
  rw [adc, getFlag_setZN]
  rfl

theorem getFlag_v_adc (p a m : Byte) :
    getFlag (adc p a m).2 .v =
      ((a ^^^ (adc p a m).1) &&& (m ^^^ (adc p a m).1) &&& 0x80 != 0) := by
  rw [adc, getFlag_setZN, getFlag_setFlag_same]
  rfl

/-- An add keeps I, D, B and U. -/
theorem getFlag_adc_of_ne (p a m : Byte) {f : Flag} (hc : f ≠ .c) (hz : f ≠ .z) (hv : f ≠ .v)
    (hn : f ≠ .n) : getFlag (adc p a m).2 f = getFlag p f := by
  rw [adc, getFlag_setZN, getFlag_setFlag, getFlag_setFlag, if_neg hn, if_neg hz, if_neg hv,
    if_neg hc]

/-! ### V as two's-complement overflow (42_arithmetic_logic.md R118, derived) -/

/-- A byte masked with $80 is its sign bit. -/
theorem and_signBit_ne_zero (x : Byte) : (x &&& 0x80 != 0) = x.msb := by
  have h : x &&& 0x80 = if x.getLsbD 7 then BitVec.twoPow 8 7 else 0#8 := BitVec.and_twoPow x 7
  rw [h, BitVec.msb_eq_getLsbD_last]
  cases x.getLsbD 7 <;> rfl

/-- The rule's test of the sign bits: those of `a` and `m` agree and differ from that of `r`. -/
theorem overflow_test_iff (a m r : Byte) :
    (((a ^^^ r) &&& (m ^^^ r) &&& 0x80) != 0) = true ↔ a.msb = m.msb ∧ r.msb ≠ a.msb := by
  rw [and_signBit_ne_zero, BitVec.msb_and, BitVec.msb_xor, BitVec.msb_xor]
  cases a.msb <;> cases m.msb <;> cases r.msb <;> decide

/-- V is set exactly when the signed sum leaves -128..127. -/
theorem getFlag_v_adc_iff (p a m : Byte) :
    getFlag (adc p a m).2 .v = true ↔
      a.toInt + m.toInt + (p.getLsbD 0).toNat < -128 ∨
      127 < a.toInt + m.toInt + (p.getLsbD 0).toNat := by
  have hc := Bool.toNat_le (p.getLsbD 0)
  have hr := toNat_adc p a m
  rw [getFlag_v_adc, overflow_test_iff, BitVec.toInt_eq_toNat_cond, BitVec.toInt_eq_toNat_cond]
  simp only [BitVec.msb_eq_decide, ne_eq, decide_eq_decide]
  omega

/-! ### The subtract as an add of the complement (42_arithmetic_logic.md R118, R120) -/

theorem sbc_eq_adc (p a m : Byte) : sbc p a m = adc p a (m ^^^ 0xFF) := rfl

theorem toNat_complement (m : Byte) : (m ^^^ 0xFF).toNat = 255 - m.toNat := by
  rw [show m ^^^ 0xFF = ~~~m from BitVec.xor_allOnes, BitVec.toNat_not]

theorem toNat_sbc (p a m : Byte) :
    ((sbc p a m).1.toNat : Int) =
      ((a.toNat : Int) - m.toNat - (1 - (p.getLsbD 0).toNat)) % 256 := by
  rw [sbc_eq_adc, toNat_adc, toNat_complement]
  have := m.isLt
  omega

/-- After a subtract C is set exactly when no borrow occurs. -/
theorem getFlag_c_sbc_iff (p a m : Byte) :
    getFlag (sbc p a m).2 .c = true ↔ m.toNat + (1 - (p.getLsbD 0).toNat) ≤ a.toNat := by
  rw [sbc_eq_adc, getFlag_c_adc, decide_eq_true_iff, toNat_complement]
  have hc := Bool.toNat_le (p.getLsbD 0)
  have := m.isLt
  omega

/-- Settles O20: the result and each flag of ADC-core, V by its sign bits and the subtract by the
complement. -/
theorem addAndSubtractLaws : Obligations.AddAndSubtractLaws := fun p a b =>
  ⟨toNat_adc p a b, getFlag_c_adc p a b, getFlag_z_adc p a b, getFlag_v_adc_iff p a b,
   by
    intro f hf
    fin_cases hf <;> exact getFlag_adc_of_ne p a b (by decide) (by decide) (by decide) (by decide),
   sbc_eq_adc p a b, toNat_sbc p a b, getFlag_c_sbc_iff p a b⟩

/-! ### Add and subtract (42_arithmetic_logic.md R119, R120) -/

theorem State.addA_eq_added (s : State) (m : Source) :
    s.addA m = added (s.afterOperand m) (s.operand m) := by
  simp only [State.addA_eq, added, adc_eq, sumOf, State.afterOperand_cpu]

theorem State.subA_eq_added (s : State) (m : Source) :
    s.subA m = added (s.afterOperand m) (s.operand m ^^^ 0xFF) := by
  simp only [State.subA_eq, added, adc_eq, sumOf, State.afterOperand_cpu]

/-- Settles O5: every form of ADC is `addA` of its operand. -/
theorem adcAddsWithCarry : Obligations.AdcAddsWithCarry := fun s v b w =>
  ⟨runs_of_exec (exec_adcImm v s) (s.addA_eq_added _),
   runs_of_exec (exec_adcZp b s) (s.addA_eq_added _),
   runs_of_exec (exec_adcZpx b s) (s.addA_eq_added _),
   runs_of_exec (exec_adcAbs w s) (s.addA_eq_added _),
   runs_of_exec (exec_adcAbsx w s) (s.addA_eq_added _),
   runs_of_exec (exec_adcAbsy w s) (s.addA_eq_added _),
   runs_of_exec (exec_adcIndx b s) (s.addA_eq_added _),
   runs_of_exec (exec_adcIndy b s) (s.addA_eq_added _)⟩

/-- Settles O6: every form of SBC is `subA` of its operand. -/
theorem sbcAddsTheComplement : Obligations.SbcAddsTheComplement := fun s v b w =>
  ⟨runs_of_exec (exec_sbcImm v s) (s.subA_eq_added _),
   runs_of_exec (exec_sbcZp b s) (s.subA_eq_added _),
   runs_of_exec (exec_sbcZpx b s) (s.subA_eq_added _),
   runs_of_exec (exec_sbcAbs w s) (s.subA_eq_added _),
   runs_of_exec (exec_sbcAbsx w s) (s.subA_eq_added _),
   runs_of_exec (exec_sbcAbsy w s) (s.subA_eq_added _),
   runs_of_exec (exec_sbcIndx b s) (s.subA_eq_added _),
   runs_of_exec (exec_sbcIndy b s) (s.subA_eq_added _)⟩

/-! ### Logic and BIT (42_arithmetic_logic.md R121 to R124) -/

theorem State.logicA_eq_loadedA (s : State) (op : Byte → Byte → Byte) (m : Source) :
    s.logicA op m = loadedA (s.afterOperand m) (op (s.afterOperand m).cpu.a (s.operand m)) := by
  simp only [State.logicA_eq, loadedA, State.afterOperand_cpu]

theorem State.andA_eq_loadedA (s : State) (m : Source) :
    s.andA m = loadedA (s.afterOperand m) ((s.afterOperand m).cpu.a &&& s.operand m) :=
  s.logicA_eq_loadedA _ m

theorem State.oraA_eq_loadedA (s : State) (m : Source) :
    s.oraA m = loadedA (s.afterOperand m) ((s.afterOperand m).cpu.a ||| s.operand m) :=
  s.logicA_eq_loadedA _ m

theorem State.eorA_eq_loadedA (s : State) (m : Source) :
    s.eorA m = loadedA (s.afterOperand m) ((s.afterOperand m).cpu.a ^^^ s.operand m) :=
  s.logicA_eq_loadedA _ m

/-- Settles O7: every form is `andA`, `oraA` or `eorA` of its operand, each one `logicA`. -/
theorem logicCombinesIntoA : Obligations.LogicCombinesIntoA := fun s v b w =>
  ⟨runs_of_exec (exec_andImm v s) (s.andA_eq_loadedA _),
   runs_of_exec (exec_andZp b s) (s.andA_eq_loadedA _),
   runs_of_exec (exec_andZpx b s) (s.andA_eq_loadedA _),
   runs_of_exec (exec_andAbs w s) (s.andA_eq_loadedA _),
   runs_of_exec (exec_andAbsx w s) (s.andA_eq_loadedA _),
   runs_of_exec (exec_andAbsy w s) (s.andA_eq_loadedA _),
   runs_of_exec (exec_andIndx b s) (s.andA_eq_loadedA _),
   runs_of_exec (exec_andIndy b s) (s.andA_eq_loadedA _),
   runs_of_exec (exec_oraImm v s) (s.oraA_eq_loadedA _),
   runs_of_exec (exec_oraZp b s) (s.oraA_eq_loadedA _),
   runs_of_exec (exec_oraZpx b s) (s.oraA_eq_loadedA _),
   runs_of_exec (exec_oraAbs w s) (s.oraA_eq_loadedA _),
   runs_of_exec (exec_oraAbsx w s) (s.oraA_eq_loadedA _),
   runs_of_exec (exec_oraAbsy w s) (s.oraA_eq_loadedA _),
   runs_of_exec (exec_oraIndx b s) (s.oraA_eq_loadedA _),
   runs_of_exec (exec_oraIndy b s) (s.oraA_eq_loadedA _),
   runs_of_exec (exec_eorImm v s) (s.eorA_eq_loadedA _),
   runs_of_exec (exec_eorZp b s) (s.eorA_eq_loadedA _),
   runs_of_exec (exec_eorZpx b s) (s.eorA_eq_loadedA _),
   runs_of_exec (exec_eorAbs w s) (s.eorA_eq_loadedA _),
   runs_of_exec (exec_eorAbsx w s) (s.eorA_eq_loadedA _),
   runs_of_exec (exec_eorAbsy w s) (s.eorA_eq_loadedA _),
   runs_of_exec (exec_eorIndx b s) (s.eorA_eq_loadedA _),
   runs_of_exec (exec_eorIndy b s) (s.eorA_eq_loadedA _)⟩

theorem State.testA_eq_tested (s : State) (f : MemForm) :
    s.testA f = tested (s.touch (s.ea f)) (s.peek (s.ea f)) := by
  simp only [State.testA_eq, tested, bitTest_eq, State.touch_cpu]

/-- Settles O8: both forms of BIT are `testA` of their operand. -/
theorem bitWritesFlagsOnly : Obligations.BitWritesFlagsOnly := fun s b w =>
  ⟨runs_of_exec (exec_bitZp b s) (s.testA_eq_tested _),
   runs_of_exec (exec_bitAbs w s) (s.testA_eq_tested _)⟩

/-! ### Compares (42_arithmetic_logic.md R125 to R127) -/

/-- Z of the difference is equality of the two sides. -/
theorem State.compareWith_eq_compared (s : State) (l : Byte) (m : Source) :
    s.compareWith l m = compared l (s.afterOperand m) (s.operand m) := by
  simp only [State.compareWith_eq, compared, withCZN, sub_eq_zero, State.afterOperand_cpu]

/-- Settles O9: every form of CMP, CPX and CPY is `compareWith` of its register and its operand. -/
theorem comparesWriteFlagsOnly : Obligations.ComparesWriteFlagsOnly := fun s v b w =>
  ⟨runs_of_exec (exec_cmpImm v s) (s.compareWith_eq_compared _ _),
   runs_of_exec (exec_cmpZp b s) (s.compareWith_eq_compared _ _),
   runs_of_exec (exec_cmpZpx b s) (s.compareWith_eq_compared _ _),
   runs_of_exec (exec_cmpAbs w s) (s.compareWith_eq_compared _ _),
   runs_of_exec (exec_cmpAbsx w s) (s.compareWith_eq_compared _ _),
   runs_of_exec (exec_cmpAbsy w s) (s.compareWith_eq_compared _ _),
   runs_of_exec (exec_cmpIndx b s) (s.compareWith_eq_compared _ _),
   runs_of_exec (exec_cmpIndy b s) (s.compareWith_eq_compared _ _),
   runs_of_exec (exec_cpxImm v s) (s.compareWith_eq_compared _ _),
   runs_of_exec (exec_cpxZp b s) (s.compareWith_eq_compared _ _),
   runs_of_exec (exec_cpxAbs w s) (s.compareWith_eq_compared _ _),
   runs_of_exec (exec_cpyImm v s) (s.compareWith_eq_compared _ _),
   runs_of_exec (exec_cpyZp b s) (s.compareWith_eq_compared _ _),
   runs_of_exec (exec_cpyAbs w s) (s.compareWith_eq_compared _ _)⟩

/-! ### Increments and decrements of memory (42_arithmetic_logic.md R128, R129) -/

/-- Settles O10: every form is a read-modify-write of memory, and `inc` and `dec` leave P to the
final Z and N. -/
theorem incDecMemory : Obligations.IncDecMemory := fun s b w =>
  ⟨runs_of_exec (exec_incZp b s) (s.rmw_mem_eq inc _),
   runs_of_exec (exec_incZpx b s) (s.rmw_mem_eq inc _),
   runs_of_exec (exec_incAbs w s) (s.rmw_mem_eq inc _),
   runs_of_exec (exec_incAbsx w s) (s.rmw_mem_eq inc _),
   runs_of_exec (exec_decZp b s) (s.rmw_mem_eq dec _),
   runs_of_exec (exec_decZpx b s) (s.rmw_mem_eq dec _),
   runs_of_exec (exec_decAbs w s) (s.rmw_mem_eq dec _),
   runs_of_exec (exec_decAbsx w s) (s.rmw_mem_eq dec _)⟩

end Sys2Proof.Machine
end

section
/-! PROOFS of the family 43_shift_rotate.md. The model's shifts and rotates work on bits, those of
the statements on numbers: each is shown to be the other, and then each form of an instruction is its
read-modify-write. -/

namespace Sys2Proof.Machine

open Sys2Proof.Claims

/-! ### A byte moved by one bit, as a number -/

theorem getLsbD_zero_eq_decide (v : Byte) : v.getLsbD 0 = decide (v.toNat % 2 = 1) :=
  Nat.testBit_zero _

theorem getLsbD_seven_eq_decide (v : Byte) : v.getLsbD 7 = decide (128 ≤ v.toNat) :=
  BitVec.msb_eq_decide v

theorem toNat_shiftLeft_one (v : Byte) : (v <<< 1).toNat = 2 * v.toNat % 256 := by
  rw [BitVec.toNat_shiftLeft, Nat.shiftLeft_eq, mul_comm, pow_one]

theorem toNat_shiftRight_one (v : Byte) : (v >>> 1).toNat = v.toNat / 2 := by
  rw [BitVec.toNat_ushiftRight, Nat.shiftRight_eq_div_pow, pow_one]

theorem setBit_false_of_clear {n : Nat} {v : BitVec n} {i : Nat} (hv : v.getLsbD i = false) :
    setBit v i false = v := by
  refine BitVec.eq_of_getLsbD_eq fun j _ => ?_
  rw [getLsbD_setBit]
  split
  · next h => rw [h.1, hv]
  · rfl

/-- Filling a clear bit adds its weight. -/
theorem toNat_setBit_of_clear {n : Nat} {v : BitVec n} {i : Nat} (hi : i < n)
    (hv : v.getLsbD i = false) (b : Bool) : (setBit v i b).toNat = v.toNat + 2 ^ i * b.toNat := by
  cases b with
  | false => rw [setBit_false_of_clear hv, Bool.toNat_false, mul_zero, add_zero]
  | true =>
    have hclear : v &&& BitVec.twoPow n i = 0#n := by
      rw [BitVec.and_twoPow, if_neg (by simp [hv])]
    calc (setBit v i true).toNat
        = (v + BitVec.twoPow n i).toNat := by rw [BitVec.add_eq_or_of_and_eq_zero _ _ hclear]; rfl
      _ = v.toNat + 2 ^ i * true.toNat := by
        rw [BitVec.toNat_add_of_and_eq_zero hclear, BitVec.toNat_twoPow_of_lt hi,
          Bool.toNat_true, mul_one]

/-! ### The result of each operation (43_shift_rotate.md R134 to R137) -/

theorem asl_fst (p v : Byte) : (asl p v).1 = BitVec.ofNat 8 (2 * v.toNat) :=
  BitVec.eq_of_toNat_eq (toNat_shiftLeft_one v)

theorem lsr_fst (p v : Byte) : (lsr p v).1 = BitVec.ofNat 8 (v.toNat / 2) := by
  rw [← toNat_shiftRight_one, BitVec.ofNat_toNat, BitVec.setWidth_eq]
  rfl

/-- The shift leaves bit 0 clear, so the old carry is added to twice the byte. -/
theorem rol_fst (p v : Byte) :
    (rol p v).1 = BitVec.ofNat 8 (2 * v.toNat + (p.getLsbD 0).toNat) := by
  have hclear : (v <<< 1).getLsbD 0 = false := by rw [BitVec.getLsbD_shiftLeft]; rfl
  have hfill : (rol p v).1.toNat = 2 * v.toNat % 256 + 2 ^ 0 * (p.getLsbD 0).toNat := by
    rw [← toNat_shiftLeft_one]
    exact toNat_setBit_of_clear (by decide) hclear _
  have hc := Bool.toNat_le (p.getLsbD 0)
  refine BitVec.eq_of_toNat_eq ?_
  rw [hfill, BitVec.toNat_ofNat]
  omega

/-- The shift leaves bit 7 clear, so the old carry is added above half the byte. -/
theorem ror_fst (p v : Byte) :
    (ror p v).1 = BitVec.ofNat 8 (v.toNat / 2 + 128 * (p.getLsbD 0).toNat) := by
  have hclear : (v >>> 1).getLsbD 7 = false := by
    rw [BitVec.getLsbD_ushiftRight, BitVec.getLsbD_of_ge _ _ (by decide)]
  have hfill : (ror p v).1.toNat = v.toNat / 2 + 2 ^ 7 * (p.getLsbD 0).toNat := by
    rw [← toNat_shiftRight_one]
    exact toNat_setBit_of_clear (by decide) hclear _
  rw [← BitVec.setWidth_eq (ror p v).1, ← BitVec.ofNat_toNat, hfill]
  rfl

/-! ### The result and P of each operation, with Z and N of the result -/

/-- A result and the P it leaves, after the `SetZN` that ends a read-modify-write. -/
def withResultZN (r : Byte × Byte) : Byte × Byte := (r.1, withZN r.2 r.1)

theorem withResultZN_eq_carried {s : State} {q : Byte × Byte} {r : Nat} {c b : Bool}
    (hq : q.2 = setFlag s.cpu.p .c c) (hr : q.1 = BitVec.ofNat 8 r) (hc : c = b) :
    withResultZN q = carried s r b := by
  rw [withResultZN, hq, hr, hc, ← setZN_eq, setZN_setFlag_c, carried]

theorem withResultZN_asl (s : State) (v : Byte) : withResultZN (asl s.cpu.p v) = aslOf s v :=
  withResultZN_eq_carried rfl (asl_fst _ v) (getLsbD_seven_eq_decide v)

theorem withResultZN_lsr (s : State) (v : Byte) : withResultZN (lsr s.cpu.p v) = lsrOf s v :=
  withResultZN_eq_carried rfl (lsr_fst _ v) (getLsbD_zero_eq_decide v)

theorem withResultZN_rol (s : State) (v : Byte) : withResultZN (rol s.cpu.p v) = rolOf s v :=
  withResultZN_eq_carried rfl (rol_fst _ v) (getLsbD_seven_eq_decide v)

theorem withResultZN_ror (s : State) (v : Byte) : withResultZN (ror s.cpu.p v) = rorOf s v :=
  withResultZN_eq_carried rfl (ror_fst _ v) (getLsbD_zero_eq_decide v)

/-! ### The forms of an instruction -/

section
variable {s : State} {g : Byte → Byte → Byte × Byte} {effect : Byte → Byte × Byte}
  (hg : ∀ v, withResultZN (g s.cpu.p v) = effect v)
include hg

theorem State.rmw_acc_eq_rotatedA : s.rmw g .acc = rotatedA s (effect s.cpu.a) := by
  rw [s.rmw_acc_eq, ← hg]
  rfl

theorem State.rmw_mem_eq_updated (f : MemForm) :
    s.rmw g (.mem f) =
      { (s.touch (s.ea f)).memWrite (s.ea f) (effect (s.peek (s.ea f))).1 with
        cpu := { s.cpu with p := (effect (s.peek (s.ea f))).2 } } := by
  rw [s.rmw_mem_eq, ← hg]
  rfl

end

/-- Settles O11: every form is a read-modify-write of A or of memory, whose result and P are those
of the statement's arithmetic. -/
theorem shiftsMoveOneBitThroughCarry : Obligations.ShiftsMoveOneBitThroughCarry := fun s b w =>
  have hasl := withResultZN_asl s
  have hlsr := withResultZN_lsr s
  have hrol := withResultZN_rol s
  have hror := withResultZN_ror s
  ⟨runs_of_exec (exec_aslAcc s) (State.rmw_acc_eq_rotatedA hasl),
   runs_of_exec (exec_aslZp b s) (State.rmw_mem_eq_updated hasl _),
   runs_of_exec (exec_aslZpx b s) (State.rmw_mem_eq_updated hasl _),
   runs_of_exec (exec_aslAbs w s) (State.rmw_mem_eq_updated hasl _),
   runs_of_exec (exec_aslAbsx w s) (State.rmw_mem_eq_updated hasl _),
   runs_of_exec (exec_lsrAcc s) (State.rmw_acc_eq_rotatedA hlsr),
   runs_of_exec (exec_lsrZp b s) (State.rmw_mem_eq_updated hlsr _),
   runs_of_exec (exec_lsrZpx b s) (State.rmw_mem_eq_updated hlsr _),
   runs_of_exec (exec_lsrAbs w s) (State.rmw_mem_eq_updated hlsr _),
   runs_of_exec (exec_lsrAbsx w s) (State.rmw_mem_eq_updated hlsr _),
   runs_of_exec (exec_rolAcc s) (State.rmw_acc_eq_rotatedA hrol),
   runs_of_exec (exec_rolZp b s) (State.rmw_mem_eq_updated hrol _),
   runs_of_exec (exec_rolZpx b s) (State.rmw_mem_eq_updated hrol _),
   runs_of_exec (exec_rolAbs w s) (State.rmw_mem_eq_updated hrol _),
   runs_of_exec (exec_rolAbsx w s) (State.rmw_mem_eq_updated hrol _),
   runs_of_exec (exec_rorAcc s) (State.rmw_acc_eq_rotatedA hror),
   runs_of_exec (exec_rorZp b s) (State.rmw_mem_eq_updated hror _),
   runs_of_exec (exec_rorZpx b s) (State.rmw_mem_eq_updated hror _),
   runs_of_exec (exec_rorAbs w s) (State.rmw_mem_eq_updated hror _),
   runs_of_exec (exec_rorAbsx w s) (State.rmw_mem_eq_updated hror _)⟩

end Sys2Proof.Machine
end

section
/-! PROOFS of the family 44_control_transfer.md. A branch as the statements' signed displacement, the
address of a pointer's high byte as its two masked parts, and the subroutine call and return as record
updates of the stack. -/

namespace Sys2Proof.Machine

open Sys2Proof.Claims

/-! ### Branches (44_control_transfer.md R138 to R146) -/

theorem State.branch_eq_branched (s : State) (taken : Bool) (d : Byte) :
    s.branch taken d = branched s taken d := by
  cases taken with
  | false => rfl
  | true => exact congrArg s.setPc (s.branchTarget_eq d)

/-- Settles O12: every branch is `branch` on its flag, and a flag is its bit of P. -/
theorem branchesAddTheDisplacementWhenTaken : Obligations.BranchesAddTheDisplacementWhenTaken :=
  fun s d =>
  ⟨runs_of_exec (exec_bcc d s) (s.branch_eq_branched _ d),
   runs_of_exec (exec_bcs d s) (s.branch_eq_branched _ d),
   runs_of_exec (exec_beq d s) (s.branch_eq_branched _ d),
   runs_of_exec (exec_bmi d s) (s.branch_eq_branched _ d),
   runs_of_exec (exec_bne d s) (s.branch_eq_branched _ d),
   runs_of_exec (exec_bpl d s) (s.branch_eq_branched _ d),
   runs_of_exec (exec_bvc d s) (s.branch_eq_branched _ d),
   runs_of_exec (exec_bvs d s) (s.branch_eq_branched _ d)⟩

/-! ### The jumps (44_control_transfer.md R147, 40_addressing.md R98) -/

/-- Masking with $FF00 keeps the high byte. -/
theorem and_highMask (w : Word) : w &&& 0xFF00 = ofHiLo (hiByte w) 0 := by
  calc w &&& 0xFF00
      = ofHiLo (hiByte w) (loByte w) &&& ofHiLo (BitVec.allOnes 8) 0 := by rw [ofHiLo_bytes]; rfl
    _ = ofHiLo (hiByte w &&& BitVec.allOnes 8) (loByte w &&& 0) := BitVec.and_append
    _ = ofHiLo (hiByte w) 0 := by rw [BitVec.and_allOnes]; exact congrArg _ BitVec.and_zero

/-- Masking with $00FF keeps the low byte. -/
theorem and_lowMask (w : Word) : w &&& 0x00FF = ofHiLo 0 (loByte w) := by
  calc w &&& 0x00FF
      = ofHiLo (hiByte w) (loByte w) &&& ofHiLo 0 (BitVec.allOnes 8) := by rw [ofHiLo_bytes]; rfl
    _ = ofHiLo (hiByte w &&& 0) (loByte w &&& BitVec.allOnes 8) := BitVec.and_append
    _ = ofHiLo 0 (loByte w) := by
      rw [BitVec.and_allOnes]; exact congrArg (ofHiLo · _) BitVec.and_zero

theorem loByte_add_one (w : Word) : loByte (w + 1) = loByte w + 1 :=
  BitVec.setWidth_add w 1 (by decide)

/-- The successor within a page: the high byte of `w` beside the low byte of `w + 1`. -/
theorem ofHiLo_hiByte_loByte_add_one (w : Word) :
    ofHiLo (hiByte w) (loByte w + 1) = w &&& 0xFF00 ||| (w + 1) &&& 0x00FF := by
  rw [and_highMask, and_lowMask, loByte_add_one]
  calc ofHiLo (hiByte w) (loByte w + 1)
      = ofHiLo (hiByte w ||| 0) (0 ||| (loByte w + 1)) :=
        congrArg₂ ofHiLo BitVec.or_zero.symm BitVec.zero_or.symm
    _ = ofHiLo (hiByte w) 0 ||| ofHiLo 0 (loByte w + 1) := BitVec.or_append.symm

theorem jmpHighAddr_eq (ps : Params) (w : Word) :
    jmpHighAddr ps w =
      if ps.jmpIndPageWrap then (w &&& 0xFF00) ||| ((w + 1) &&& 0x00FF) else w + 1 := by
  rw [jmpHighAddr, ofHiLo_hiByte_loByte_add_one]

/-- The two pointer reads leave the CPU as it was, so the jump writes PC alone. -/
theorem State.afterIndirect_setPc (s : State) (w v : Word) :
    (s.afterIndirect w).setPc v =
      { (s.touch w).touch (jmpHighAddr s.params w) with cpu := { s.cpu with pc := v } } := by
  rw [State.setPc, State.afterIndirect_cpu, State.afterIndirect_eq]

/-- Settles O13: the indirect target is two bus reads, the second at `jmpHighAddr`. -/
theorem jmpGoesToItsTarget : Obligations.JmpGoesToItsTarget := fun s w =>
  ⟨runs_of_exec (exec_jmpAbs w s) rfl,
   runs_of_exec (exec_jmpInd w s) (by
    rw [State.afterIndirect_setPc, State.indirectTarget, jmpHighAddr_eq])⟩

/-! ### The subroutine call and return (44_control_transfer.md R148, R149) -/

/-- The cell a push at S writes. -/
theorem stackCell_zero (s : State) : stackCell s 0 = 0x100 + s.cpu.s.toNat :=
  congrArg (fun o : Byte => 0x100 + o.toNat) (BitVec.sub_zero s.cpu.s)

/-- Settles O14: the call is a 16-bit push and the return a 16-bit pull, each followed by a write of
PC. -/
theorem jsrAndRtsUseTheStack : Obligations.JsrAndRtsUseTheStack := fun s w =>
  ⟨runs_of_exec (exec_jsrAbs w s) (by rw [State.push16_eq, stackCell_zero]; rfl),
   runs_of_exec (exec_rts s) (by rw [State.pull16_eq, State.pulled16_eq]; rfl)⟩

end Sys2Proof.Machine
end

section
/-! PROOFS of the family 45_stack_flag_system.md. A flag written as one bit of P written out, then the
stack and interrupt laws in the terms the statements use: the cells at S and below it, and the bytes
above it. -/

namespace Sys2Proof.Machine

open Sys2Proof.Claims

/-! ### Pushes and pulls (45_stack_flag_system.md R150 to R153) -/

theorem State.push_eq_stackCell (s : State) (v : Byte) :
    s.push v = { s with
      cpu := { s.cpu with s := s.cpu.s - 1 }
      wram := s.wram.write (stackCell s 0) v } := by
  rw [State.push_eq, stackCell_zero]

theorem State.pulled_eq_onStack (s : State) : s.pulled = onStack s 1 := s.pulled_eq

/-- Settles O15: the two pushes write the cell at S, and the two pulls take the byte above it. -/
theorem pushAndPullInstructions : Obligations.PushAndPullInstructions := fun s =>
  ⟨runs_of_exec (exec_pha s) (s.push_eq_stackCell _),
   runs_of_exec (exec_php s) (s.push_eq_stackCell _),
   runs_of_exec (exec_pla s) (by rw [State.setA_setZN, State.pulled_eq_onStack]; rfl),
   runs_of_exec (exec_plp s) (by rw [State.pulled_eq_onStack]; rfl)⟩

/-! ### Flags (45_stack_flag_system.md R154 to R160) -/

/-- A flag write is a write of the flag's bit of P, the other seven kept. -/
theorem setFlag_eq_bitOf (p : Byte) (f : Flag) (b : Bool) : setFlag p f b = bitOf p f.bit b := by
  rw [setFlag_eq]
  cases f <;> rfl

theorem State.putFlag_eq_withP (s : State) (f : Flag) (b : Bool) :
    s.putFlag f b = withP s (bitOf s.cpu.p f.bit b) :=
  congrArg s.setP (setFlag_eq_bitOf s.cpu.p f b)

/-- Settles O16: each flag instruction is `putFlag` of its flag, and NOP completes in `s` itself. -/
theorem flagInstructionsAndNop : Obligations.FlagInstructionsAndNop := fun s =>
  ⟨runs_of_exec (exec_clc s) (s.putFlag_eq_withP _ _),
   runs_of_exec (exec_cld s) (s.putFlag_eq_withP _ _),
   runs_of_exec (exec_cli s) (s.putFlag_eq_withP _ _),
   runs_of_exec (exec_clv s) (s.putFlag_eq_withP _ _),
   runs_of_exec (exec_sec s) (s.putFlag_eq_withP _ _),
   runs_of_exec (exec_sed s) (s.putFlag_eq_withP _ _),
   runs_of_exec (exec_sei s) (s.putFlag_eq_withP _ _),
   runs_of_exec (exec_nop s) rfl⟩

/-! ### Interrupt entry and return (45_stack_flag_system.md R161, R162; 60_exceptions.md R172) -/

/-- Through a vector in the cartridge ROM, the pushes cannot reach the vector's own bytes. -/
theorem State.interruptEntry_eq_entered (s : State) (ret : Word) (pushed : Byte) {vec : Word}
    (h : 0x8000 ≤ vec.toNat) (h' : vec.toNat < 0xFFFF) :
    s.interruptEntry ret pushed vec = entered s ret pushed vec := by
  rw [State.interruptEntry_eq s ret pushed vec h h', entered, stackCell_zero, setI_eq,
    ← vector_rom s vec h h']
  rfl

/-- Settles O17: BRK is interrupt entry through $FFFE, with its own address at PC - 1. -/
theorem brkEntersThroughItsVector : Obligations.BrkEntersThroughItsVector := fun s pc0 hpc => by
  have hpc0 : s.cpu.pc - 1 = pc0 := by rw [hpc, BitVec.add_sub_cancel]
  refine runs_of_exec (exec_brk s) ?_
  rw [hpc0, State.interruptEntry_eq_entered s _ _ (by decide) (by decide)]
  rfl

/-- Settles O18: RTI is `interruptReturn`, which pulls three bytes. -/
theorem rtiRestoresPAndPc : Obligations.RtiRestoresPAndPc := fun s =>
  runs_of_exec (exec_rti s) s.interruptReturn_eq

end Sys2Proof.Machine
end

section
/-! PROOFS of the family 60_exceptions.md. The run loop's batch and the NMI; OAM DMA, the controller and
the PPU's ports; one dot by its position, and the NMI requests of a frame; power-up and the host; then
the renderer, whose composites and evaluation are one pixel or one sprite after another. -/

namespace Sys2Proof.Machine

open Sys2Proof.Claims

/-! ### The run loop's batch and the NMI (60_exceptions.md R169, R172, R173, R193) -/

theorem State.finish_eq (t : State) (n : Nat) :
    t.finish n =
      if (t.ppuBatch (3 * n)).nmiPending then
        (State.nmiEntry { t.ppuBatch (3 * n) with nmiPending := false }).ppuBatch 21
      else t.ppuBatch (3 * n) := by
  rw [State.finish, State.nmiCheck, show 3 * nmiCycles = 21 from rfl]

/-- NMI entry keeps `nmiPending`, which the NMI check has cleared. -/
theorem State.nmiEntry_of_clear (s : State) :
    (State.nmiEntry { s with nmiPending := false }).nmiPending = false := by
  rw [State.nmiEntry_eq]

/-- A batch with no NMI pending latches the batch's own request. -/
theorem State.ppuBatch_of_clear {s : State} (h : s.nmiPending = false) (n : Nat) :
    s.ppuBatch n =
      { s with ppu := s.ppu.stepN s.cart n, nmiPending := s.ppu.stepNRequest s.cart n } := by
  rw [State.ppuBatch, h, Bool.false_or]

/-- Settles O30: the NMI entry leaves no request pending, so the 21 dots latch their own. -/
theorem finishRunsTheBatchThenTheNmi : Obligations.FinishRunsTheBatchThenTheNmi := by
  refine ⟨fun t n => ?_, fun c u n => ⟨rfl, rfl, Ppu.stepNRequest_exists c u n⟩,
    fun s t => live_of_step⟩
  rw [State.finish_eq, State.ppuBatch_of_clear (State.nmiEntry_of_clear _)]
  rfl

/-- Settles O31: both vectors lie in the cartridge ROM, above every cell the pushes write. -/
theorem nmiEntryPushesAndVectors : Obligations.NmiEntryPushesAndVectors := by
  have entry (s : State) (ret : Word) (pushed : Byte) : ∀ vec ∈ [nmiVector, brkVector],
      s.interruptEntry ret pushed vec = entered s ret pushed vec := by
    intro vec h
    rcases List.mem_pair.1 h with rfl | rfl
    · exact s.interruptEntry_eq_entered ret pushed (by decide) (by decide)
    · exact s.interruptEntry_eq_entered ret pushed (by decide) (by decide)
  exact ⟨entry, fun s => entry s s.cpu.pc _ nmiVector List.mem_cons_self, rfl⟩

/-! ### OAM DMA (60_exceptions.md R191) -/

/-- The address of byte `i` of page `v`. -/
theorem toNat_pageByte (v : Byte) {i : Nat} (hi : i < 256) :
    (ofHiLo v (BitVec.ofNat 8 i)).toNat = 256 * v.toNat + i := by
  rw [toNat_ofHiLo, BitVec.toNat_ofNat, Nat.mod_eq_of_lt hi, Nat.add_comm]

section Dma

variable (v : Byte) (s : State)

/-- The copies change nothing but OAM and what the reads of the page change. -/
theorem copied_eq (n : Nat) :
    copied v s n = { readPage v s n with
      ppu := { (readPage v s n).ppu with oam := (copied v s n).ppu.oam } } := by
  induction n with
  | zero => rfl
  | succ n ih =>
    have ht : (copied v s n).touch (ofHiLo v (BitVec.ofNat 8 n)) =
        { readPage v s (n + 1) with
          ppu := { (readPage v s (n + 1)).ppu with oam := (copied v s n).ppu.oam } } := by
      rw [ih]
      exact State.touch_withOam _ _ _
    rw [copied, ht]

theorem readPage_oamAddr (n : Nat) : (readPage v s n).ppu.oamAddr = s.ppu.oamAddr := by
  induction n with
  | zero => rfl
  | succ n ih => rw [readPage, State.touch_ppu_oamAddr, ih]

theorem copied_oamAddr (n : Nat) : (copied v s n).ppu.oamAddr = s.ppu.oamAddr := by
  rw [copied_eq]
  exact readPage_oamAddr v s n

/-- One copy of the model's loop is one copy of the statement's. -/
theorem dmaFrom_copied_succ {n : Nat} (h : n < 256) :
    State.dmaFrom v (n + 1) (copied v s (255 - n)) = State.dmaFrom v n (copied v s (256 - n)) := by
  rw [show 256 - n = 255 - n + 1 by omega, State.dmaFrom, copied]
  simp only [State.touch_ppu_oam, State.touch_ppu_oamAddr, copied_oamAddr]

theorem dmaFrom_copied {n : Nat} (h : n ≤ 256) :
    State.dmaFrom v n (copied v s (256 - n)) = copied v s 256 := by
  induction n with
  | zero => rfl
  | succ n ih =>
    rw [show 256 - (n + 1) = 255 - n by omega, dmaFrom_copied_succ v s h, ih (by omega)]

theorem State.oamDma_eq_copied : s.oamDma v = copied v s 256 := dmaFrom_copied v s le_rfl

/-- The cell copy `i` writes keeps its byte: the other copies write other cells. -/
theorem copied_oam_read {i n : Nat} (hi : i < n) (hn : n ≤ 256) :
    (copied v s n).ppu.oam.read ((s.ppu.oamAddr.toNat + i) % 256) =
      (copied v s i).peek (ofHiLo v (BitVec.ofNat 8 i)) := by
  induction n with
  | zero => omega
  | succ n ih =>
    simp only [copied, Memory.read_write]
    rcases Nat.lt_succ_iff_lt_or_eq.1 hi with hlt | rfl
    · rw [if_neg (by omega), ih hlt (by omega)]
    · rw [if_pos rfl]

/-- A read outside the PPU's ports does not see the bytes copied so far. -/
theorem copied_peek {a : Word} (n : Nat) (h : a.toNat ≤ 0x1FFF ∨ 0x3FFF < a.toNat) :
    (copied v s n).peek a = (readPage v s n).peek a := by
  rw [copied_eq, State.peek_withPpu _ _ _ h]

/-- Reading a page outside $20 to $40 has no side effect. -/
theorem readPage_of_plain (hv : v.toNat < 0x20 ∨ 0x40 < v.toNat) {n : Nat} (hn : n ≤ 256) :
    readPage v s n = s := by
  induction n with
  | zero => rfl
  | succ n ih =>
    have ha := toNat_pageByte v hn
    rw [readPage, ih (by omega), State.touch_of_plain _ _ (by omega) (by omega)]

/-- Reading page $40 reads the controller once, at offset $16. -/
theorem readPage_io {n : Nat} (hn : n ≤ 256) :
    readPage 0x40 s n = if n ≤ 0x16 then s else s.touch 0x4016 := by
  induction n with
  | zero => rfl
  | succ n ih =>
    have ha : (ofHiLo 0x40 (BitVec.ofNat 8 n)).toNat = 0x4000 + n := toNat_pageByte 0x40 hn
    rw [readPage, ih (by omega)]
    rcases lt_trichotomy n 0x16 with hlt | rfl | hgt
    · rw [if_pos hlt.le, if_pos (by omega), State.touch_of_plain _ _ (by omega) (by omega)]
    · rfl
    · rw [if_neg (by omega), if_neg (by omega), State.touch_of_plain _ _ (by omega) (by omega)]

theorem copied_peek_io {i : Nat} (hi : i < 256) :
    (copied 0x40 s i).peek (ofHiLo 0x40 (BitVec.ofNat 8 i)) =
      if i = 0x16 then s.ctrl.peek else 0 := by
  have ha : (ofHiLo 0x40 (BitVec.ofNat 8 i)).toNat = 0x4000 + i := toNat_pageByte 0x40 hi
  rw [copied_peek _ _ _ (by omega)]
  split
  · next h =>
    rw [State.peek_ctrl _ (by omega), readPage_io _ hi.le, if_pos h.le]
  · next h => exact State.peek_inert _ (by omega) (by omega) (by omega)

end Dma

/-- Settles O42: the model's loop is `copied`, whose reads are those of `readPage`. -/
theorem oamDmaCopiesAPage : Obligations.OamDmaCopiesAPage := by
  intro s v
  have hdma : s.memWrite 0x4014 v = copied v s 256 := by
    rw [s.memWrite_dma v rfl, s.oamDma_eq_copied v]
  refine ⟨hdma, fun i hi => copied_oam_read v s hi le_rfl, ⟨_, hdma.trans (copied_eq v s 256)⟩, ?_,
    fun hv => ⟨readPage_of_plain v s hv le_rfl, fun i hi => ?_⟩⟩
  · rintro rfl
    exact ⟨readPage_io s le_rfl, fun i hi => copied_peek_io s hi⟩
  · have ha := toNat_pageByte v hi
    rw [copied_peek _ _ _ (by omega), readPage_of_plain v s hv hi.le]

/-! ### The controller (60_exceptions.md R192) -/

theorem readTimes_ctrl (n : Nat) (s : State) :
    readTimes 0x4016 n s = { s with ctrl := Ctrl.touch^[n] s.ctrl } := by
  induction n generalizing s with
  | zero => rfl
  | succ n ih => rw [readTimes, ih, s.touch_ctrl rfl, Function.iterate_succ_apply]

/-- With the strobe on a read leaves the index. -/
theorem Ctrl.touch_of_strobe {c : Ctrl} (h : c.strobe = true) : c.touch = c := by
  rw [Ctrl.touch, if_pos h]

/-- With the strobe off, `n` reads move the index by `n`, up to 8. -/
theorem Ctrl.iterate_touch {c : Ctrl} (h : c.strobe = false) (hi : c.index ≤ 8) (n : Nat) :
    Ctrl.touch^[n] c = { c with index := min 8 (c.index + n) } := by
  induction n with
  | zero => rw [Function.iterate_zero_apply, Nat.add_zero, min_eq_right hi]
  | succ n ih =>
    rw [Function.iterate_succ_apply', ih, Ctrl.touch_eq, h]
    have hstep : (if min 8 (c.index + n) < 8 then min 8 (c.index + n) + 1 else min 8 (c.index + n)) =
        min 8 (c.index + (n + 1)) := by split <;> omega
    simp only [true_and, hstep]

/-- With the strobe off, the read at position `k` of the shift register. -/
theorem Ctrl.peek_of_strobe_off {c : Ctrl} (h : c.strobe = false) (k : Nat) :
    ({ c with index := min 8 k } : Ctrl).peek =
      match k with
      | 0 => byteOfBool c.buttons.a
      | 1 => byteOfBool c.buttons.b
      | 2 => byteOfBool c.buttons.select
      | 3 => byteOfBool c.buttons.start
      | 4 => byteOfBool c.buttons.up
      | 5 => byteOfBool c.buttons.down
      | 6 => byteOfBool c.buttons.left
      | 7 => byteOfBool c.buttons.right
      | _ => 1 := by
  rcases Nat.lt_or_ge k 8 with hk | hk
  · interval_cases k <;> simp [Ctrl.peek, h, Buttons.get]
  · obtain ⟨j, rfl⟩ := Nat.exists_eq_add_of_le' hk
    simp [Ctrl.peek, h]

/-- Settles O43: `n` reads of $4016 are `n` steps of the shift register. -/
theorem controllerShiftsOutTheButtons : Obligations.ControllerShiftsOutTheButtons := by
  intro s v n
  rw [s.memWrite_ctrl v rfl]
  refine ⟨rfl, rfl, fun h => ?_, fun h hi => ?_, s.peek_inert (by decide) (by decide) (by decide)⟩
  · rw [readTimes_ctrl, Function.iterate_fixed (Ctrl.touch_of_strobe h), State.peek_ctrl _ rfl]
    exact ⟨if_pos h, rfl⟩
  · rw [readTimes_ctrl, Ctrl.iterate_touch h hi, State.peek_ctrl _ rfl]
    exact Ctrl.peek_of_strobe_off h _

/-! ### The PPU's ports (60_exceptions.md R181 to R190) -/

theorem Ppu.scrollWrite_eq (u : Ppu) (v : Byte) :
    u.scrollWrite v = { u with
      scrollX := if u.scrollLatch then u.scrollX else v
      scrollY := if u.scrollLatch then BitVec.ofNat 8 (v.toNat % 240) else u.scrollY
      scrollLatch := !u.scrollLatch } := by
  unfold Ppu.scrollWrite
  split
  · next h => simp [h]
  · next h => simp [h]

/-- The pointer made of two bytes is the word reduced to 14 bits. -/
theorem setWidth_append (hi lo : Byte) :
    (hi ++ lo : BitVec 16).setWidth 14 = BitVec.ofNat 14 (256 * hi.toNat + lo.toNat) := by
  have h := toNat_ofHiLo hi lo
  rw [ofHiLo] at h
  rw [← BitVec.ofNat_toNat, h, Nat.add_comm]

theorem Ppu.addrWrite_eq (u : Ppu) (v : Byte) :
    u.addrWrite v = { u with
      addrHi := if u.addrLatch then u.addrHi else v
      vaddr := if u.addrLatch then BitVec.ofNat 14 (256 * u.addrHi.toNat + v.toNat) else u.vaddr
      addrLatch := !u.addrLatch } := by
  unfold Ppu.addrWrite
  rw [setWidth_append]
  split
  · next h => simp [h]
  · next h => simp [h]

/-- Settles O44: the two toggled ports by their equations, the others as the model gives them. -/
theorem portWritesDoWhatEachPortSays : Obligations.PortWritesDoWhatEachPortSays := by
  refine fun s v => ⟨rfl, rfl, rfl, rfl, rfl, ?_, ?_, ?_, rfl, rfl, rfl, rfl⟩
  · rw [State.portWrite, Ppu.portWrite, Ppu.scrollWrite_eq]; rfl
  · rw [State.portWrite, Ppu.portWrite, Ppu.addrWrite_eq]; rfl
  · rfl

/-- The status byte as a number: its three flags lie above the low five bits. -/
theorem Ppu.toNat_status (u : Ppu) :
    u.status.toNat =
      128 * u.vbl.toNat + 64 * u.s0.toNat + 32 * u.ovf.toNat + u.lastWrite.toNat % 32 := by
  have hlow : (u.lastWrite &&& 0x1F).toNat = u.lastWrite.toNat % 32 := by
    rw [BitVec.toNat_and]
    exact Nat.and_two_pow_sub_one_eq_mod u.lastWrite.toNat 5
  have hclear {k : Nat} (hk : 5 ≤ k) (hk' : k < 8) : (u.lastWrite &&& 0x1F).getLsbD k = false := by
    have h : (0x1F : Byte).getLsbD k = false := by interval_cases k <;> rfl
    rw [BitVec.getLsbD_and, h, Bool.and_false]
  rw [Ppu.status, toNat_setBit_of_clear (by decide), toNat_setBit_of_clear (by decide),
    toNat_setBit_of_clear (by decide), hlow]
  · omega
  · exact hclear (by decide) (by decide)
  · rw [getLsbD_setBit, if_neg (by decide), hclear (by decide) (by decide)]
  · rw [getLsbD_setBit, if_neg (by decide), getLsbD_setBit, if_neg (by decide),
      hclear (by decide) (by decide)]

/-- Settles O45: the status byte by `Ppu.toNat_status`, port 7 by its read mode and by $3F00. -/
theorem statusAndDataPortReads : Obligations.StatusAndDataPortReads := by
  refine fun s v => ⟨rfl, rfl, rfl, rfl, rfl, rfl, s.ppu.toNat_status, rfl, fun h => ⟨?_, ?_⟩,
    fun h hv => ⟨?_, ?_⟩, fun h hv => ⟨?_, ?_⟩, rfl, rfl⟩
  · rw [Ppu.portPeek, Ppu.dataPeek, h]
  · rw [Ppu.portTouch, Ppu.bufferAfter, h]
    rfl
  · rw [Ppu.portPeek, Ppu.dataPeek, h]
    exact if_pos hv
  · rw [Ppu.portTouch, Ppu.bufferAfter_eq, h]
    simp only [if_pos hv]
    rfl
  · rw [Ppu.portPeek, Ppu.dataPeek, h]
    exact if_neg (not_le.2 hv)
  · rw [Ppu.portTouch, Ppu.bufferAfter_eq, h]
    simp only [if_neg (not_le.2 hv)]
    rfl

/-! ### One dot (60_exceptions.md R194, R195) -/

section Dot

variable (c : Cart) {u : Ppu}

theorem Ppu.tick_visible (h : u.scanline ≤ 239) : u.tick c = (u.visible c).advance := by
  rw [Ppu.tick, Ppu.action, if_pos h]

theorem Ppu.tick_vblank (h : u.scanline = 241) (hd : u.dot = 0) : u.tick c = u.enterVblank.advance := by
  rw [Ppu.tick, Ppu.action, if_neg (by omega), if_pos ⟨h, hd⟩]

theorem Ppu.tick_preRender (h : u.scanline = 261) (hd : u.dot = 0) :
    u.tick c = u.preRender.advance := by
  rw [Ppu.tick, Ppu.action, if_neg (by omega), if_neg (by omega), if_pos ⟨h, hd⟩]

theorem Ppu.tick_idle (h : Idle u.scanline u.dot) : u.tick c = u.advance := by
  rw [Ppu.tick, Ppu.action]
  by_cases hs : u.scanline ≤ 239
  · rw [if_pos hs, Ppu.visible, if_neg (by omega), if_neg (by omega), if_neg (by omega)]
  · rw [if_neg hs, if_neg (by omega), if_neg (by omega)]

/-- A sprite slot is drawn on the last of its eight dots; on the others nothing happens. -/
theorem Ppu.spriteFetchStep_of_ne (u : Ppu) (s : Nat) {d : Nat} (h : (d - 257) % 8 ≠ 7) :
    u.spriteFetchStep c s d = u := by
  rw [Ppu.spriteFetchStep, if_pos (.inl h)]

end Dot

theorem Ppu.advance_eq (u : Ppu) : u.advance = { u with
    dot := if u.dot + 1 = 341 then 0 else u.dot + 1
    scanline := if u.dot + 1 = 341 then (u.scanline + 1) % 262 else u.scanline } := by
  unfold Ppu.advance
  split <;> rfl

theorem Ppu.tickRequest_of_ne {u : Ppu} (h : ¬ (u.scanline = 241 ∧ u.dot = 0)) :
    u.tickRequest = false := by
  rw [Ppu.tickRequest, decide_eq_false h, Bool.false_and]

/-- Settles O49: the branches of the dot's action, one lemma each. -/
theorem ppuDotActionsByPosition : Obligations.PpuDotActionsByPosition := by
  intro c u _ _ s d
  refine ⟨Ppu.advance_eq, fun hs h1 h2 => ?_, fun hs h1 => ?_, fun hs h1 h2 => ?_, fun hs hd => ?_,
    Ppu.tick_preRender c, Ppu.tick_idle c, Ppu.tickRequest_of_ne⟩
  · rw [Ppu.tick_visible c hs, Ppu.visible, if_pos ⟨h1, h2⟩]
  · have hd : u.dot = 257 := h1
    rw [Ppu.spriteFetchStep_of_ne c _ _ (by omega), Ppu.tick_visible c hs, Ppu.visible,
      if_neg (by omega), if_pos hd]
  · rw [Ppu.tick_visible c hs, Ppu.visible, if_neg (by omega), if_neg (by omega), if_pos ⟨h1, h2⟩]
  · refine ⟨Ppu.tick_vblank c hs hd, ?_⟩
    rw [Ppu.tickRequest, decide_eq_true ⟨hs, hd⟩, Bool.true_and]

/-- Settles O50: the two actions are these updates, and the request is the guarded PPUCTRL bit. -/
theorem vblankEntryAndPreRenderClear : Obligations.VblankEntryAndPreRenderClear := by
  refine fun u => ⟨rfl, ?_, rfl⟩
  rw [Ppu.nmiRequest]
  cases u.ctrl.getLsbD 7 <;> cases u.nmiGuard <;> rfl

/-! ### One NMI request a vblank (60_exceptions.md R168) -/

section Vblank

variable {u : Ppu} (h : u.Inv)
include h

theorem Ppu.Inv.position_eq_iff {s : Nat} : u.position = 341 * s ↔ u.scanline = s ∧ u.dot = 0 := by
  have hd := h.dot
  unfold Ppu.position
  omega

/-- The guard after a dot, by the position it leaves. -/
theorem Ppu.Inv.tick_guard_iff (c : Cart) :
    (u.tick c).nmiGuard = true ↔ InVblank ((u.position + 1) % 89342) := by
  rw [← Ppu.tick_position c u h.scanline h.dot]
  exact h.tick.guard

/-- Exactly one of the dots of a frame is the dot of vblank entry, wherever the frame starts. -/
theorem Ppu.Inv.vblank_dot_unique {k : Nat} (hk : k < 89342) :
    (u.position + k) % 89342 = 341 * 241 ↔ k = (341 * 241 + 89342 - u.position) % 89342 := by
  have hs := h.scanline
  have hd := h.dot
  have hp : u.position = 341 * u.scanline + u.dot := rfl
  omega

theorem Ppu.Inv.stepN_tickRequest (c : Cart) {k : Nat} (hk : k < 89342) :
    (u.stepN c k).tickRequest =
      (u.ctrl.getLsbD 7 && k == (341 * 241 + 89342 - u.position) % 89342) := by
  rw [Bool.eq_iff_iff, Ppu.tickRequest_iff (h.stepN k), Ppu.stepN_position h, Ppu.stepN_ctrl,
    h.vblank_dot_unique hk, Bool.and_eq_true, beq_iff_eq, and_comm]

theorem Ppu.Inv.countP_tickRequest (c : Cart) :
    (List.range 89342).countP (fun k => (u.stepN c k).tickRequest) =
      if u.ctrl.getLsbD 7 then 1 else 0 := by
  have hmem : (341 * 241 + 89342 - u.position) % 89342 ∈ List.range 89342 :=
    List.mem_range.2 (Nat.mod_lt _ (by omega))
  rw [List.countP_congr fun k hk => Bool.eq_iff_iff.1 (h.stepN_tickRequest c (List.mem_range.1 hk))]
  cases u.ctrl.getLsbD 7 with
  | false => simp
  | true =>
    simp only [Bool.true_and, if_true]
    exact List.count_eq_one_of_mem List.nodup_range hmem

/-- From inside vblank the next dot of vblank entry is that of the next frame. -/
theorem Ppu.Inv.no_request_in_vblank (c : Cart) (hv : InVblank u.position) {n : Nat}
    (hn : u.position + n ≤ 89342 + 341 * 241) : u.stepNRequest c n = false := by
  rw [← Bool.not_eq_true, Ppu.stepNRequest_iff h]
  rintro ⟨-, k, hk, hpos⟩
  omega

end Vblank

/-- Settles O51: the invariant fixes the guard by the position, and the position runs through the
frame one dot at a time. -/
theorem oneNmiRequestPerVblank : Obligations.OneNmiRequestPerVblank := by
  intro c u h
  refine ⟨?_, fun hs hd => ?_, fun hs hd => ?_, h.countP_tickRequest c, fun hv v n hn => ?_⟩
  · rw [Ppu.tickRequest_iff h, h.position_eq_iff, and_assoc]
  · have hpos := h.position_eq_iff.2 ⟨hs, hd⟩
    rw [← Bool.not_eq_true, h.guard, h.tick_guard_iff, hpos]
    decide
  · have hpos := h.position_eq_iff.2 ⟨hs, hd⟩
    rw [← Bool.not_eq_true, h.tick_guard_iff, hpos]
    decide
  · exact (h.portWrite c .ctrl v).no_request_in_vblank c hv hn

/-! ### Power-up and the host (60_exceptions.md R170) -/

theorem Memory.mem_ofCells {n : Nat} {cells : List Host.Cell} {c : Host.Cell}
    (h : c ∈ Memory.ofCells n cells) : c ∈ cells := by
  induction cells using List.reverseRecOn with
  | nil => exact h
  | append_singleton cells d ih =>
    rw [Memory.ofCells_concat] at h
    rw [List.mem_append, List.mem_singleton]
    split at h
    · exact (Cells.mem_write h).symm.imp_left ih
    · exact .inl (ih h)

theorem PowerUpInput.cart_inv (inp : PowerUpInput) : inp.cart.Inv := by
  refine insertCartridge_inv _ (fun i hi => ?_) (Memory.wf_ofCells _ _) (Memory.wf_ofCells _ _)
  obtain ⟨im, _, rfl⟩ := Option.map_eq_some_iff.1 hi
  exact Memory.wf_ofCells im.1 im.2

/-- The memories of `MEM_INIT` are canonical, and every other field is that of the reset PPU. -/
theorem PowerUpInput.ppu_inv (inp : PowerUpInput) : inp.beforeVector.ppu.Inv :=
  { Ppu.reset_inv with
    oam := Memory.wf_ofCells _ _
    ciram := Memory.wf_ofCells _ _
    pal := Memory.wf_ofCells _ _
    palBackdrop := fun c hc => by simpa using (List.mem_filter.1 (Memory.mem_ofCells hc)).2 }

theorem powerUp_inv (inp : PowerUpInput) : (powerUp inp).Inv where
  wram := Memory.wf_ofCells _ _
  ctrlIndex := Nat.zero_le _
  cart := inp.cart_inv
  ppu := inp.ppu_inv
  stop := State.reset_inv.stop

theorem State.Inv.hostAct {s : State} (h : s.Inv) (a : HostAction) : (s.hostAct a).Inv := by
  cases a with
  | setButtons b => exact { h with }
  | takeFrame => exact { h with ppu := { h.ppu with } }
  | setRunning r => exact { h with }
  | writeSram i v => exact { h with cart := h.cart.withSram (Memory.wf_write v h.cart.sram i.isLt) }

/-- Settles O59: the initial memories are canonical, and a host action writes one field. -/
theorem powerUpAndHostActionsMeetTheInvariant :
    Obligations.PowerUpAndHostActionsMeetTheInvariant :=
  ⟨powerUp_inv, fun _ a h => h.hostAct a⟩

/-! ### Background fetch (60_exceptions.md R196) -/

/-- Settles O52: dot 8k + j is dot j of the eight dots of tile column k. -/
theorem backgroundFetchesFourBytesPerTile : Obligations.BackgroundFetchesFourBytesPerTile := by
  intro c u s k _ _ ntBase row
  have column {j : Nat} (h : 1 ≤ j) (h' : j ≤ 8) : (8 * k + j - 1) / 8 = k := by omega
  have slot {j : Nat} (h : 1 ≤ j) (h' : j ≤ 8) : (8 * k + j - 1) % 8 = j - 1 := by omega
  refine ⟨?_, ?_, ?_, ?_, fun j hj => ?_⟩
  · rw [Ppu.bgFetchStep, column (by decide) (by decide), slot (by decide) (by decide)]
    rfl
  · rw [Ppu.bgFetchStep, column (by decide) (by decide), slot (by decide) (by decide)]
    rfl
  · rw [Ppu.bgFetchStep, slot (by decide) (by decide)]
    rfl
  · rw [Ppu.bgFetchStep, column (by decide) (by decide), slot (by decide) (by decide)]
    rfl
  · have hj' : j = 1 ∨ j = 3 ∨ j = 5 ∨ j = 7 := by simpa using hj
    rw [Ppu.bgFetchStep, slot (by omega) (by omega)]
    rcases hj' with rfl | rfl | rfl | rfl <;> rfl

/-! ### Background composite (60_exceptions.md R197) -/

/-- A run of `m` bits set one after another from bit `a` on. -/
theorem getLsbD_foldl_setBit {n : Nat} (v : BitVec n) (a : Nat) (g : Nat → Bool) {m : Nat}
    (hm : a + m ≤ n) (x : Nat) :
    ((List.range m).foldl (fun v i => setBit v (a + i) (g i)) v).getLsbD x =
      if a ≤ x ∧ x < a + m then g (x - a) else v.getLsbD x := by
  induction m with
  | zero => rw [if_neg (by omega)]; rfl
  | succ m ih =>
    rw [List.range_succ, List.foldl_append, List.foldl_cons, List.foldl_nil, getLsbD_setBit,
      ih (by omega)]
    by_cases hx : x = a + m
    · subst hx
      rw [if_pos ⟨rfl, by omega⟩, if_pos ⟨by omega, by omega⟩, Nat.add_sub_cancel_left]
    · rw [if_neg (mt And.left hx)]
      exact if_congr (by omega) rfl rfl

/-- A run of `m` cells written one after another from key `a` on. -/
theorem Cells.read_foldl_write {α : Type} [DecidableEq α] (d : α) (c : Cells α) (a : Nat) (g : Nat → α)
    (m y : Nat) :
    Cells.read d ((List.range m).foldl (fun c i => Cells.write d c (a + i) (g i)) c) y =
      if a ≤ y ∧ y < a + m then g (y - a) else Cells.read d c y := by
  induction m with
  | zero => rw [if_neg (by omega)]; rfl
  | succ m ih =>
    rw [List.range_succ, List.foldl_append, List.foldl_cons, List.foldl_nil, Cells.read_write, ih]
    by_cases hy : y = a + m
    · subst hy
      rw [if_pos rfl, if_pos ⟨by omega, by omega⟩, Nat.add_sub_cancel_left]
    · rw [if_neg hy]
      exact if_congr (by omega) rfl rfl

/-- The value of background pixel `i` of the fetched tile row. -/
def Ppu.bgValue (u : Ppu) (i : Nat) : Nat :=
  if u.mask.getLsbD 3 then pixel u.ptHigh u.ptLow (7 - i) else 0

/-- The colour of background pixel `i` of tile column `k` on line `s`. -/
def Ppu.bgColour (u : Ppu) (s k i : Nat) : Colour :=
  if u.bgValue i = 0 then u.colour 0 else u.colour (4 * u.group s k + u.bgValue i)

/-- The pixels of a composite write one opacity bit and one framebuffer cell each, and the values they
write do not depend on either. -/
theorem Ppu.foldl_bgPixel (u : Ppu) (s k : Nat) (l : List Nat) :
    l.foldl (Ppu.bgPixel s k) u = { u with
      bgOpaque := l.foldl (fun v i => setBit v (8 * k + i) (u.bgValue i != 0)) u.bgOpaque
      fb := l.foldl (fun c i => Cells.write 0 c (256 * s + (8 * k + i)) (u.bgColour s k i)) u.fb } := by
  induction l generalizing u with
  | nil => rfl
  | cons i l ih =>
    rw [List.foldl_cons, ih]
    rfl

section Composite

variable (u : Ppu) (s k : Nat)

theorem Ppu.bgComposite_frame :
    u.bgComposite s k =
      { u with fb := (u.bgComposite s k).fb, bgOpaque := (u.bgComposite s k).bgOpaque } := by
  rw [Ppu.bgComposite, Ppu.foldl_bgPixel]

theorem Ppu.bgComposite_bgOpaque (hk : k < 32) (x : Nat) :
    (u.bgComposite s k).bgOpaque.getLsbD x =
      if x / 8 = k then decide (u.bgValue (x - 8 * k) ≠ 0) else u.bgOpaque.getLsbD x := by
  rw [Ppu.bgComposite, Ppu.foldl_bgPixel]
  dsimp only
  rw [getLsbD_foldl_setBit _ _ _ (by omega)]
  refine ite_congr (propext (by omega)) (fun _ => ?_) fun _ => rfl
  exact Bool.eq_iff_iff.2 (by simp)

theorem Ppu.bgComposite_fbAt (hk : k < 32) (s' : Nat) {x : Nat} (hx : x < 256) :
    (u.bgComposite s k).fbAt s' x =
      if s' = s ∧ x / 8 = k then u.bgColour s k (x - 8 * k) else u.fbAt s' x := by
  rw [Ppu.bgComposite, Ppu.foldl_bgPixel, Ppu.fbAt, Ppu.fbAt]
  simp only [← Nat.add_assoc, Cells.read_foldl_write]
  refine ite_congr (propext (by omega)) (fun h => ?_) fun _ => rfl
  obtain ⟨rfl, -⟩ := h
  rw [Nat.add_sub_add_left]

theorem Ppu.group_eq :
    u.group s k = u.atByte.toNat / 2 ^ (4 * (s / 16 % 2) + 2 * (k / 2 % 2)) % 4 := by
  rw [Ppu.group, BitVec.toNat_ushiftRight, Nat.shiftRight_eq_div_pow]

end Composite

/-- Settles O53: the composite is a run of eight opacity bits and a run of eight framebuffer cells. -/
theorem backgroundCompositePaintsEightPixels : Obligations.BackgroundCompositePaintsEightPixels := by
  intro u s k _ hk v g p
  refine ⟨u.bgComposite_frame s k, fun i hi => ⟨?_, ?_⟩, fun x hx => ?_, fun s' x hx h => ?_⟩
  · rw [u.bgComposite_bgOpaque s k hk, if_pos (by omega), Nat.add_sub_cancel_left]
    rfl
  · rw [u.bgComposite_fbAt s k hk s (by omega), if_pos ⟨rfl, by omega⟩, Nat.add_sub_cancel_left,
      Ppu.bgColour, Ppu.group_eq]
    exact (apply_ite (BitVec.setWidth 6) _ _ _).symm
  · rw [u.bgComposite_bgOpaque s k hk, if_neg hx]
  · rw [u.bgComposite_fbAt s k hk s' hx, if_neg h]

/-! ### Sprite evaluation (60_exceptions.md R198) -/

/-- The Y byte of sprite `i` puts it on line `s`. -/
abbrev Ppu.OnLine (u : Ppu) (s i : Nat) : Prop :=
  (u.oam.read (4 * i)).toNat + 1 ≤ s ∧ s ≤ (u.oam.read (4 * i)).toNat + 8

theorem Ppu.spriteRow_inRange_iff (u : Ppu) (s i : Nat) :
    (0 ≤ u.spriteRow s i ∧ u.spriteRow s i ≤ 7) ↔ u.OnLine s i := by
  unfold Ppu.spriteRow Ppu.spriteByte
  rw [Nat.add_zero]
  omega

/-- `v` is `u` after the sprites found on the line so far, `found`, have been selected. -/
structure Ppu.Selected (found : List Nat) (u v : Ppu) : Prop where
  frame : v = { u with selCount := v.selCount, sel := v.sel, ovf := v.ovf }
  count : v.selCount = min 8 found.length
  sel : ∀ j < v.selCount, found[j]? = some (v.selAt j)
  ovf : v.ovf = (u.ovf || decide (8 < found.length))

section Selected

variable {found : List Nat} {u v : Ppu}

theorem Ppu.Selected.onLine_iff (h : Ppu.Selected found u v) (s i : Nat) :
    v.OnLine s i ↔ u.OnLine s i := by
  rw [h.frame]

/-- The next sprite takes the first free slot. -/
theorem Ppu.Selected.take (h : Ppu.Selected found u v) {s i : Nat} (hi : i < 64)
    (hl : v.OnLine s i) (hfree : v.selCount < 8) :
    Ppu.Selected (found ++ [i]) u (v.evalSprite s i) := by
  have hlen : found.length = v.selCount := by have := h.count; omega
  rw [Ppu.evalSprite, if_pos ((v.spriteRow_inRange_iff s i).2 hl), if_pos hfree]
  constructor
  · dsimp only
    rw [h.frame]
  · simp only [List.length_append, List.length_singleton]
    omega
  · intro j hj
    rcases Nat.lt_succ_iff_lt_or_eq.1 (show j < v.selCount + 1 from hj) with hlt | rfl
    · rw [List.getElem?_append_left (by omega), h.sel j hlt, Ppu.selAt, Ppu.selAt,
        Vector.getElem?_setIfInBounds_ne (by omega)]
    · rw [← hlen, List.getElem?_concat_length, hlen, Ppu.selAt, Vector.getElem?_setIfInBounds_self,
        if_pos hfree, Option.getD_some, Fin.val_ofNat, Nat.mod_eq_of_lt hi]
  · rw [h.ovf]
    simp only [List.length_append, List.length_singleton]
    rw [decide_eq_false (by omega : ¬ 8 < found.length), decide_eq_false (by omega)]

/-- With no slot free, the next sprite sets the overflow flag. -/
theorem Ppu.Selected.drop (h : Ppu.Selected found u v) {s i : Nat}
    (hl : v.OnLine s i) (hfull : ¬ v.selCount < 8) :
    Ppu.Selected (found ++ [i]) u (v.evalSprite s i) := by
  have hcount := h.count
  rw [Ppu.evalSprite, if_pos ((v.spriteRow_inRange_iff s i).2 hl), if_neg hfull]
  constructor
  · dsimp only
    rw [h.frame]
  · simp only [List.length_append, List.length_singleton]
    omega
  · intro j hj
    have hj' : j < v.selCount := hj
    rw [List.getElem?_append_left (by omega)]
    exact h.sel j hj
  · simp only [List.length_append, List.length_singleton]
    rw [decide_eq_true (by omega), Bool.or_true]

theorem Ppu.Selected.evalSprite (h : Ppu.Selected found u v) (s : Nat) {i : Nat} (hi : i < 64) :
    Ppu.Selected (found ++ [i].filter (fun i => decide (u.OnLine s i))) u (v.evalSprite s i) := by
  by_cases hl : u.OnLine s i
  · rw [List.filter_singleton, decide_eq_true hl, cond_true]
    have hl' := (h.onLine_iff s i).2 hl
    by_cases hfree : v.selCount < 8
    · exact h.take hi hl' hfree
    · exact h.drop hl' hfree
  · have hl' : ¬ v.OnLine s i := mt (h.onLine_iff s i).1 hl
    rw [List.filter_singleton, decide_eq_false hl, cond_false, List.append_nil, Ppu.evalSprite,
      if_neg (mt (v.spriteRow_inRange_iff s i).1 hl')]
    exact h

end Selected

theorem Ppu.selected_foldl {u : Ppu} (hu : u.selCount = 0) (s : Nat) {m : Nat} (hm : m ≤ 64) :
    Ppu.Selected ((List.range m).filter fun i => decide (u.OnLine s i)) u
      ((List.range m).foldl (Ppu.evalSprite s) u) := by
  induction m with
  | zero => exact ⟨rfl, hu, fun j hj => by simp [hu] at hj, by simp⟩
  | succ m ih =>
    rw [List.range_succ, List.filter_append, List.foldl_append]
    exact (ih (by omega)).evalSprite s hm

theorem Ppu.spriteEval_off {u : Ppu} (h : u.mask.getLsbD 4 = false) (s : Nat) :
    u.spriteEval s = { u with selCount := 0, sprClaimed := 0 } := by
  rw [Ppu.spriteEval, h]
  rfl

theorem Ppu.spriteEval_on {u : Ppu} (h : u.mask.getLsbD 4 = true) (s : Nat) :
    Ppu.Selected (onLine u s) { u with selCount := 0, sprClaimed := 0 } (u.spriteEval s) := by
  rw [Ppu.spriteEval, h]
  exact Ppu.selected_foldl (u := { u with selCount := 0, sprClaimed := 0 }) rfl s le_rfl

/-- Settles O54: the 64 sprites one after another, each taking a slot or setting the flag. -/
theorem spriteEvaluationSelectsTheFirstEight : Obligations.SpriteEvaluationSelectsTheFirstEight := by
  intro u s
  cases hm : u.mask.getLsbD 4 with
  | false =>
    rw [Ppu.spriteEval_off hm]
    exact ⟨rfl, fun _ => ⟨rfl, rfl, rfl⟩, fun h => absurd h Bool.false_ne_true⟩
  | true =>
    have h := Ppu.spriteEval_on hm s
    exact ⟨h.frame, fun h => absurd h.symm Bool.false_ne_true, fun _ => ⟨h.count, h.sel, h.ovf⟩⟩

/-! ### Sprite fetch and composite (60_exceptions.md R199, R200) -/

/-- `v` is `u` after sprite `i` has claimed the columns `own` of line `s`. It paints column `x` with
palette position `q x` unless it is `behind` an opaque background. -/
structure Ppu.Claimed (s i : Nat) (behind : Bool) (q : Nat → Nat) (own : Nat → Prop)
    [DecidablePred own] (u v : Ppu) : Prop where
  frame : v = { u with fb := v.fb, sprClaimed := v.sprClaimed, s0 := v.s0 }
  claimed : ∀ x < 256, v.sprClaimed.getLsbD x = (u.sprClaimed.getLsbD x || decide (own x))
  line : ∀ x < 256, v.fbAt s x =
    if own x ∧ (behind = false ∨ u.bgOpaque.getLsbD x = false) then u.colour (q x) else u.fbAt s x
  otherLines : ∀ s' x, x < 256 → s' ≠ s → v.fbAt s' x = u.fbAt s' x
  hit : v.s0 = true ↔ u.s0 = true ∨ (i = 0 ∧ ∃ x < 256, own x ∧ u.bgOpaque.getLsbD x = true)

section Claimed

variable {s i : Nat} {behind : Bool} {q : Nat → Nat} {own own' : Nat → Prop} [DecidablePred own]
  [DecidablePred own'] {u v w : Ppu}

theorem Ppu.Claimed.none (h : ∀ x < 256, ¬ own x) : Ppu.Claimed s i behind q own u u where
  frame := rfl
  claimed x hx := by rw [decide_eq_false (h x hx), Bool.or_false]
  line x hx := (if_neg fun hx' => h x hx hx'.1).symm
  otherLines _ _ _ _ := rfl
  hit := ⟨.inl, fun hor => hor.resolve_right fun ⟨_, x, hx, hown, _⟩ => h x hx hown⟩

/-- Two claims one after the other: a column of either is painted alike, and nothing that decides it
has changed in between. -/
theorem Ppu.Claimed.trans (h : Ppu.Claimed s i behind q own u v)
    (g : Ppu.Claimed s i behind q own' v w) :
    Ppu.Claimed s i behind q (fun x => own x ∨ own' x) u w where
  frame := by rw [g.frame, h.frame]
  claimed x hx := by rw [g.claimed x hx, h.claimed x hx, Bool.or_assoc, Bool.decide_or]
  line x hx := by
    have hbg : v.bgOpaque = u.bgOpaque := by rw [h.frame]
    have hcol : v.colour (q x) = u.colour (q x) := by rw [h.frame]; rfl
    rw [g.line x hx, h.line x hx, hbg, hcol, ← ite_or]
    exact if_congr (by rw [← or_and_right, or_comm (a := own' x)]) rfl rfl
  otherLines s' x hx hs := by rw [g.otherLines s' x hx hs, h.otherLines s' x hx hs]
  hit := by
    have hbg : v.bgOpaque = u.bgOpaque := by rw [h.frame]
    rw [g.hit, h.hit, hbg, or_assoc, ← and_or_left, ← exists_or]
    simp only [or_and_right, and_or_left]

theorem Ppu.Claimed.congr (h : Ppu.Claimed s i behind q own u v) (hown : ∀ x < 256, own x ↔ own' x) :
    Ppu.Claimed s i behind q own' u v where
  frame := h.frame
  claimed x hx := by rw [h.claimed x hx, decide_eq_decide.2 (hown x hx)]
  line x hx := by simp only [h.line x hx, hown x hx]
  otherLines := h.otherLines
  hit := by
    rw [h.hit]
    refine or_congr_right (and_congr_right fun _ => exists_congr fun x => and_congr_right fun hx => ?_)
    rw [hown x hx]

end Claimed

/-- Sprite `i` claims the one column `x` of line `s`. -/
def Ppu.claim (s i : Nat) (behind : Bool) (q : Nat → Nat) (u : Ppu) (x : Nat) : Ppu :=
  { u with
    sprClaimed := setBit u.sprClaimed x true
    s0 := u.s0 || (i == 0 && u.bgOpaque.getLsbD x)
    fb := if behind = false ∨ u.bgOpaque.getLsbD x = false then
      Cells.write 0 u.fb (256 * s + x) (u.colour (q x)) else u.fb }

section Claim

variable (u : Ppu) (s i : Nat) (behind : Bool) (q : Nat → Nat) {x : Nat}

theorem Ppu.claim_fbAt (hx : x ≤ 255) (s' : Nat) {y : Nat} (hy : y < 256) :
    (u.claim s i behind q x).fbAt s' y =
      if s' = s ∧ y = x ∧ (behind = false ∨ u.bgOpaque.getLsbD x = false) then u.colour (q x)
      else u.fbAt s' y := by
  simp only [Ppu.fbAt, Ppu.claim]
  by_cases hb : behind = false ∨ u.bgOpaque.getLsbD x = false
  · rw [if_pos hb, Cells.read_write]
    exact if_congr ⟨fun e => ⟨by omega, by omega, hb⟩, fun ⟨_, _, _⟩ => by omega⟩ rfl rfl
  · rw [if_neg hb, if_neg fun h => hb h.2.2]

theorem Ppu.claim_claimed (hx : x ≤ 255) :
    Ppu.Claimed s i behind q (· = x) u (u.claim s i behind q x) where
  frame := rfl
  claimed y hy := by
    rw [Ppu.claim, getLsbD_setBit]
    by_cases e : y = x
    · rw [if_pos ⟨e, by omega⟩, decide_eq_true e, Bool.or_true]
    · rw [if_neg fun h => e h.1, decide_eq_false e, Bool.or_false]
  line y hy := by
    rw [u.claim_fbAt s i behind q hx s hy]
    by_cases e : y = x
    · simp only [e, true_and]
    · rw [if_neg fun h => e h.2.1, if_neg fun h => e h.1]
  otherLines s' y hy hs := by
    rw [u.claim_fbAt s i behind q hx s' hy, if_neg fun h => hs h.1]
  hit := by simp [Ppu.claim, Nat.lt_succ_of_le hx]

end Claim

section Row

variable (s i : Nat) (attr x0 hi lo : Byte)

/-- The value of pixel `k` of a sprite row with these planes. -/
def rowValue (k : Nat) : Nat := pixel hi lo (if attr.getLsbD 6 then k else 7 - k)

/-- The palette position a sprite row has in column `x`. -/
def rowColour (x : Nat) : Nat := 0x10 + 4 * (attr.toNat % 4) + rowValue attr hi lo (x - x0.toNat)

/-- A sprite row owns column `x` through one of its first `m` pixels: the pixel is opaque and on the
screen, and the column is not claimed yet. -/
abbrev RowOwns (u : Ppu) (m x : Nat) : Prop :=
  x0.toNat ≤ x ∧ x < x0.toNat + m ∧ x ≤ 255 ∧ rowValue attr hi lo (x - x0.toNat) ≠ 0 ∧
    u.sprClaimed.getLsbD x = false

/-- A pixel that is transparent, off the screen or on a claimed column does nothing. -/
theorem Ppu.spritePixel_of_not (u : Ppu) (k : Nat)
    (h : ¬ (x0.toNat + k ≤ 255 ∧ rowValue attr hi lo k ≠ 0 ∧
      u.sprClaimed.getLsbD (x0.toNat + k) = false)) :
    u.spritePixel s i attr x0 hi lo k = u := by
  rw [Ppu.spritePixel]
  refine if_pos ?_
  rw [← rowValue]
  by_contra hn
  simp only [not_or, Bool.not_eq_true, not_lt] at hn
  exact h hn

theorem Ppu.spritePixel_of (u : Ppu) (k : Nat) (hx : x0.toNat + k ≤ 255)
    (hv : rowValue attr hi lo k ≠ 0) (hc : u.sprClaimed.getLsbD (x0.toNat + k) = false) :
    u.spritePixel s i attr x0 hi lo k =
      u.claim s i (attr.getLsbD 5) (rowColour attr x0 hi lo) (x0.toNat + k) := by
  have hn : ¬ (x0.toNat + k > 255 ∨ rowValue attr hi lo k = 0 ∨
      u.sprClaimed.getLsbD (x0.toNat + k) = true) := by
    simp only [not_or, Bool.not_eq_true, not_lt]
    exact ⟨hx, hv, hc⟩
  rw [Ppu.claim, rowColour, Nat.add_sub_cancel_left, Ppu.spritePixel]
  refine (if_neg hn).trans ?_
  cases attr.getLsbD 5 <;> cases u.bgOpaque.getLsbD (x0.toNat + k) <;> rfl

theorem Ppu.spritePixel_claimed (u : Ppu) (k : Nat) :
    Ppu.Claimed s i (attr.getLsbD 5) (rowColour attr x0 hi lo)
      (fun x => x = x0.toNat + k ∧ x ≤ 255 ∧ rowValue attr hi lo k ≠ 0 ∧
        u.sprClaimed.getLsbD x = false) u (u.spritePixel s i attr x0 hi lo k) := by
  by_cases h : x0.toNat + k ≤ 255 ∧ rowValue attr hi lo k ≠ 0 ∧
      u.sprClaimed.getLsbD (x0.toNat + k) = false
  · obtain ⟨hx, hv, hc⟩ := h
    rw [u.spritePixel_of s i attr x0 hi lo k hx hv hc]
    refine (u.claim_claimed s i _ _ hx).congr fun x _ => ⟨fun e => ?_, And.left⟩
    rw [e]
    exact ⟨rfl, hx, hv, hc⟩
  · rw [u.spritePixel_of_not s i attr x0 hi lo k h]
    exact Ppu.Claimed.none fun x _ ⟨e, hx⟩ => h (e ▸ hx)

/-- The first `m` pixels of a row claim the columns the row owns through them. -/
theorem Ppu.foldl_spritePixel_claimed (u : Ppu) (m : Nat) :
    Ppu.Claimed s i (attr.getLsbD 5) (rowColour attr x0 hi lo) (RowOwns attr x0 hi lo u m) u
      ((List.range m).foldl (Ppu.spritePixel s i attr x0 hi lo) u) := by
  induction m with
  | zero => exact .none fun x _ h => by omega
  | succ m ih =>
    rw [List.range_succ, List.foldl_append]
    refine (ih.trans (Ppu.spritePixel_claimed s i attr x0 hi lo _ m)).congr fun x hx => ?_
    rw [ih.claimed x hx]
    by_cases e : x = x0.toNat + m
    · subst e -- no earlier pixel of the row lies in this column
      simp [RowOwns]
    · have : x < x0.toNat + (m + 1) ↔ x < x0.toNat + m := by omega
      simp [e, this]

end Row

/-- A drawn sprite claims the columns it owns. -/
theorem Ppu.drawSprite_claimed (c : Cart) (u : Ppu) (s i : Nat) :
    Ppu.Claimed s i ((u.oam.read (4 * i + 2)).getLsbD 5)
      (fun x => 0x10 + 4 * ((u.oam.read (4 * i + 2)).toNat % 4) +
        spriteValue c u s i (x - (u.oam.read (4 * i + 3)).toNat))
      (Owns c u s i) u (u.drawSprite c s i) :=
  Ppu.foldl_spritePixel_claimed s i _ _ _ _ u 8

/-- Slot `j` is drawn on dot 264 + 8j. -/
theorem Ppu.spriteFetchStep_last (c : Cart) (u : Ppu) (s j : Nat) :
    u.spriteFetchStep c s (264 + 8 * j) =
      if j < u.selCount then u.drawSprite c s (u.selAt j) else u := by
  have hslot : (264 + 8 * j - 257) / 8 = j := by omega
  rw [Ppu.spriteFetchStep, hslot]
  by_cases hsel : j < u.selCount
  · rw [if_neg (by omega), if_pos hsel]
  · rw [if_pos (.inr (not_lt.1 hsel)), if_neg hsel]

/-- Settles O55: a slot is one drawn sprite, and a drawn sprite is eight pixels one after another. -/
theorem spriteCompositeClaimsAndPaints : Obligations.SpriteCompositeClaimsAndPaints := by
  refine fun c u s _ => ⟨fun j _ => u.spriteFetchStep_last c s j,
    fun d h _ hd => Ppu.spriteFetchStep_of_ne c u s (by omega), fun i _ => ?_⟩
  have h := u.drawSprite_claimed c s i
  exact ⟨h.frame, h.claimed, h.line, h.otherLines, h.hit⟩

end Sys2Proof.Machine
end

section
/-! PROOFS of the family 70_reset_and_hazards.md. What a memory built from a list of cells reads as,
then the reset table of R205. -/

namespace Sys2Proof.Machine

open Sys2Proof.Claims

/-! ### The initial contents of a memory (00_scope.md R7, `MEM_INIT`) -/

@[simp] theorem listed_nil (n a : Nat) : listed n [] a = 0 := by simp [listed]

theorem listed_concat (n : Nat) (cells : List Host.Cell) (c : Host.Cell) (a : Nat) :
    listed n (cells ++ [c]) a = if a < n ∧ c.1 = a then c.2 else listed n cells a := by
  by_cases hn : a < n <;> by_cases hc : c.1 = a <;> simp [listed, hn, hc]

theorem Memory.read_ofCells (n : Nat) (cells : List Host.Cell) (a : Nat) :
    (Memory.ofCells n cells).read a = listed n cells a := by
  induction cells using List.reverseRecOn with
  | nil => exact (listed_nil n a).symm
  | append_singleton cells c ih =>
    rw [Memory.ofCells_concat, listed_concat, ← ih]
    by_cases hn : c.1 < n
    · rw [if_pos hn, Memory.read_write]
      exact if_congr ⟨fun h => ⟨h ▸ hn, h.symm⟩, fun h => h.2.symm⟩ rfl rfl
    · rw [if_neg hn, if_neg fun ⟨ha, hc⟩ => hn (hc ▸ ha)]

/-- Dropping the backdrop cells drops no cell of another palette entry. -/
theorem listed_palCells (n : Nat) (cells : List Host.Cell) {a : Nat} (h : a % 4 ≠ 0) :
    listed n (palCells cells) a = listed n cells a := by
  have hfind : (palCells cells).reverse.find? (·.1 == a) = cells.reverse.find? (·.1 == a) := by
    rw [palCells, ← List.filter_reverse, List.find?_filter]
    congr with c
    by_cases hc : c.1 = a <;> simp [hc, h]
  rw [listed, listed, hfind]

/-! ### Power-up (70_reset_and_hazards.md R204, R205) -/

/-- The vector's bytes are read before PC is loaded; no bus read depends on PC. -/
theorem powerUp_cpu (inp : PowerUpInput) :
    (powerUp inp).cpu = ⟨inp.a, inp.x, inp.y, 0xFD,
      ofHiLo ((powerUp inp).peek 0xFFFD) ((powerUp inp).peek 0xFFFC), 0x24⟩ := rfl

/-- Settles O57: each memory reads as its list of cells (`Memory.read_ofCells`), PC is the vector's
word, and every other item is the reset state's. -/
theorem powerUpGivesTheResetTable : Obligations.PowerUpGivesTheResetTable := by
  refine fun inp => ⟨powerUp_cpu inp, Memory.read_ofCells _ _, rfl,
    ⟨_, _, rfl, Memory.read_ofCells _ _, Memory.read_ofCells _ _⟩, rfl, Memory.read_ofCells _ _,
    Memory.read_ofCells _ _, fun a ha => ?_, rfl, rfl, rfl, rfl, rfl, rfl⟩
  exact (Memory.read_ofCells _ _ _).trans (listed_palCells _ _ ha)

end Sys2Proof.Machine
end

section
/-! PROOFS of the family other, part 1: the encoding. Each instruction has one of three formats; from
its format follow both directions of the round trip between bytes and instructions. -/

namespace Sys2Proof.Machine

open Sys2Proof.Claims

/-! ### Encoding and decoding (30_encoding.md R75 to R81) -/

/-- The three formats of an instruction: the opcode byte alone, with an operand byte, or with an
operand word, its low byte first. Each has its bytes, and what the decoder answers on its opcode
byte and any two bytes after it (30_encoding.md R77, R78). -/
inductive OperandFormat : Instr → Prop where
  | bare {i : Instr} (op : Byte) (henc : encode i = [op])
      (hdec : ∀ b1 b2, decode3 op b1 b2 = some i) : OperandFormat i
  | byte {f : Byte → Instr} (op b : Byte) (henc : ∀ b, encode (f b) = [op, b])
      (hdec : ∀ b1 b2, decode3 op b1 b2 = some (f b1)) : OperandFormat (f b)
  | word {f : Word → Instr} (op : Byte) (w : Word)
      (henc : ∀ w, encode (f w) = [op, loByte w, hiByte w])
      (hdec : ∀ b1 b2, decode3 op b1 b2 = some (f (ofHiLo b2 b1))) : OperandFormat (f w)

theorem operandFormat (i : Instr) : OperandFormat i := by
  cases i with
  | tax | tay | txa | tya | tsx | txs | inx | iny | dex | dey | aslAcc | lsrAcc | rolAcc | rorAcc
  | rts | pha | php | pla | plp | clc | cld | cli | clv | sec | sed | sei | brk | rti | nop =>
    exact .bare _ rfl fun _ _ => rfl
  | ldaImm b | ldaZp b | ldaZpx b | ldaIndx b | ldaIndy b | ldxImm b | ldxZp b | ldxZpy b
  | ldyImm b | ldyZp b | ldyZpx b | staZp b | staZpx b | staIndx b | staIndy b | stxZp b | stxZpy b
  | styZp b | styZpx b | adcImm b | adcZp b | adcZpx b | adcIndx b | adcIndy b | sbcImm b | sbcZp b
  | sbcZpx b | sbcIndx b | sbcIndy b | andImm b | andZp b | andZpx b | andIndx b | andIndy b
  | oraImm b | oraZp b | oraZpx b | oraIndx b | oraIndy b | eorImm b | eorZp b | eorZpx b
  | eorIndx b | eorIndy b | bitZp b | cmpImm b | cmpZp b | cmpZpx b | cmpIndx b | cmpIndy b
  | cpxImm b | cpxZp b | cpyImm b | cpyZp b | incZp b | incZpx b | decZp b | decZpx b | aslZp b
  | aslZpx b | lsrZp b | lsrZpx b | rolZp b | rolZpx b | rorZp b | rorZpx b | bcc b | bcs b | beq b
  | bmi b | bne b | bpl b | bvc b | bvs b =>
    exact .byte _ b (fun _ => rfl) fun _ _ => rfl
  | ldaAbs w | ldaAbsx w | ldaAbsy w | ldxAbs w | ldxAbsy w | ldyAbs w | ldyAbsx w | staAbs w
  | staAbsx w | staAbsy w | stxAbs w | styAbs w | adcAbs w | adcAbsx w | adcAbsy w | sbcAbs w
  | sbcAbsx w | sbcAbsy w | andAbs w | andAbsx w | andAbsy w | oraAbs w | oraAbsx w | oraAbsy w
  | eorAbs w | eorAbsx w | eorAbsy w | bitAbs w | cmpAbs w | cmpAbsx w | cmpAbsy w | cpxAbs w
  | cpyAbs w | incAbs w | incAbsx w | decAbs w | decAbsx w | aslAbs w | aslAbsx w | lsrAbs w
  | lsrAbsx w | rolAbs w | rolAbsx w | rorAbs w | rorAbsx w | jmpAbs w | jmpInd w | jsrAbs w =>
    exact .word _ w (fun _ => rfl) fun _ _ => rfl

/-- The decoder reads an instruction back from its bytes, whatever bytes follow. -/
theorem decode3_encode_append (i : Instr) (rest : List Byte) :
    decode3 ((encode i ++ rest).getD 0 0) ((encode i ++ rest).getD 1 0)
      ((encode i ++ rest).getD 2 0) = some i := by
  cases operandFormat i with
  | bare op henc hdec => rw [henc]; exact hdec _ _
  | byte op b henc hdec => rw [henc]; exact hdec _ _
  | @word f op w henc hdec =>
    rw [henc]
    exact (hdec _ _).trans (congrArg (fun v => some (f v)) (ofHiLo_bytes w))

theorem decode_encode_append (i : Instr) (rest : List Byte) :
    decode (encode i ++ rest) = .ok (i, rest) := by
  have hdec := decode3_encode_append i rest
  have hlen : i.info.operand.length = i.length - 1 := Nat.eq_sub_of_add_eq (operand_length i)
  rw [encode, List.cons_append] at hdec ⊢
  simp only [List.getD_cons_zero, List.getD_cons_succ] at hdec
  simp only [decode, hdec, List.length_append, ← hlen, List.drop_left]
  rw [if_pos (by rw [← operand_length i]; omega)]

/-! An instruction as one word, byte k in bits 8k+7 to 8k. -/

theorem tableWord_lt (bs : List Byte) : tableWord bs < 2 ^ (8 * bs.length) := by
  induction bs with
  | nil => exact Nat.one_pos
  | cons b bs ih =>
    have hb : b.toNat < 256 := b.isLt
    rw [List.length_cons, Nat.mul_succ, Nat.pow_add, tableWord]
    omega

theorem ofNat_tableWord (bs : List Byte) : BitVec.ofNat 8 (tableWord bs) = bs.getD 0 0 := by
  cases bs with
  | nil => rfl
  | cons b bs =>
    have hb : b.toNat < 256 := b.isLt
    apply BitVec.eq_of_toNat_eq
    rw [BitVec.toNat_ofNat, tableWord, List.getD_cons_zero]
    omega

theorem tableWord_div (bs : List Byte) : tableWord bs / 0x100 = tableWord bs.tail := by
  cases bs with
  | nil => rfl
  | cons b bs =>
    have hb : b.toNat < 256 := b.isLt
    rw [tableWord, List.tail_cons]
    omega

theorem decodeTableWord_tableWord (bs : List Byte) :
    decodeTableWord (8 * bs.length) (tableWord bs) =
      decode3 (bs.getD 0 0) (bs.getD 1 0) (bs.getD 2 0) := by
  have tail (l : List Byte) (n : Nat) : l.tail.getD n 0 = l.getD (n + 1) 0 := by cases l <;> rfl
  rw [decodeTableWord, Nat.mod_eq_of_lt (tableWord_lt bs),
    show 0x10000 = 0x100 * 0x100 from rfl, ← Nat.div_div_eq_div_mul]
  simp only [tableWord_div, ofNat_tableWord, tail]

/-- Settles O24: the decoder reads each format back from its bytes, and a word from its bytes. -/
theorem decodeOfEncodeIsTheInstruction : Obligations.DecodeOfEncodeIsTheInstruction := by
  refine fun i rest => ⟨decode_encode_append i rest, ?_⟩
  have hdec := decode3_encode_append i []
  rw [List.append_nil] at hdec
  rw [← length_encode, decodeTableWord_tableWord, hdec]

/-- An instruction the decoder answers has for its bytes those it was read from. -/
theorem encode_of_decode3 {op b1 b2 : Byte} {i : Instr} (h : decode3 op b1 b2 = some i) :
    encode i = [op, b1, b2].take i.length := by
  have hop : i.opcode = op := opcode_of_decode3 h
  rw [← length_encode]
  cases operandFormat i with
  | bare op' henc hdec =>
    obtain rfl : op' = op := (List.cons.inj henc).1.symm.trans hop
    rw [henc]; rfl
  | @byte f op' b henc hdec =>
    obtain rfl : op' = op := (List.cons.inj (henc b)).1.symm.trans hop
    have hi : f b1 = f b := Option.some.inj ((hdec b1 b2).symm.trans h)
    rw [← hi, henc]; rfl
  | @word f op' w henc hdec =>
    obtain rfl : op' = op := (List.cons.inj (henc w)).1.symm.trans hop
    have hi : f (ofHiLo b2 b1) = f w := Option.some.inj ((hdec b1 b2).symm.trans h)
    rw [← hi, henc, loByte_ofHiLo, hiByte_ofHiLo]; rfl

/-- The first two bytes, $00 for a missing one, agree with the list as far as it goes. -/
theorem take_getD (l : List Byte) {n : Nat} (h : n ≤ l.length) (h2 : n ≤ 2) :
    [l.getD 0 0, l.getD 1 0].take n = l.take n := by
  match l with
  | [] => obtain rfl : n = 0 := Nat.le_zero.1 h; rfl
  | [a] =>
    have h1 : n ≤ 1 := h
    interval_cases n <;> rfl
  | a :: b :: l => interval_cases n <;> rfl

/-- Settles O25: the bytes of the instruction are the first of the list, and the rest is what is
left. -/
theorem encodeOfDecodeIsTheBytes : Obligations.EncodeOfDecodeIsTheBytes := by
  intro bs rest i h
  cases bs with
  | nil => cases h
  | cons op l =>
    rw [decode] at h
    split at h
    · cases h
    next j hj =>
      split at h
      next hlen =>
        obtain ⟨rfl, rfl⟩ : j = i ∧ l.drop (j.length - 1) = rest := by simpa using h
        have hle := length_le j
        have hpos : j.length = j.length - 1 + 1 := by rw [← operand_length]; rfl
        rw [encode_of_decode3 hj, hpos, List.take_succ_cons, take_getD l (by omega) (by omega),
          List.cons_append, Nat.add_sub_cancel, List.take_append_drop]
      · cases h

/-- Settles O27: each word is the encoding of its instruction; the byte $02 has no row of the map, and
$8D $10 lacks the high byte of its address. -/
theorem specWordsDecodeToTheirInstructions : Obligations.SpecWordsDecodeToTheirInstructions :=
  ⟨decode_encode_append (.ldaImm 0x05), decode_encode_append (.staAbs 0x0010),
   decode_encode_append (.ldxZpy 0x20), decode_encode_append .aslAcc,
   decode_encode_append (.bne 0xFE), decode_encode_append (.jmpInd 0x02FF),
   decode_encode_append (.jsrAbs 0x8010), decode_encode_append (.staIndy 0x20),
   decode_encode_append (.bitZp 0x10), decode_encode_append .brk, fun _ => rfl, rfl⟩

end Sys2Proof.Machine
end

section
/-! PROOFS of the family other, part 2: what every step keeps. The canonical form is unique; the
invariant, completion, the PPU's position and the pending NMI follow from the cases of the step. -/

namespace Sys2Proof.Machine

open Sys2Proof.Claims

/-! ### The canonical form of a memory is unique (20_memory.md section 2) -/

theorem Cells.Canonical.tail {α : Type} {d : α} {c : Nat × α} {m : Cells α}
    (h : Cells.Canonical d (c :: m)) : Cells.Canonical d m :=
  ⟨(List.pairwise_cons.1 h.1).2, fun e he => h.2 e (List.mem_cons_of_mem c he)⟩

/-- The cells of a canonical list are what a read tells apart from an unlisted key. -/
theorem Cells.Canonical.mem_iff {α : Type} {d : α} {m : Cells α} (h : Cells.Canonical d m)
    (a : Nat) (v : α) : (a, v) ∈ m ↔ Cells.read d m a = v ∧ v ≠ d := by
  induction m with
  | nil => simpa using fun hv => Eq.symm hv
  | cons c m ih =>
    have hlt : ∀ e ∈ m, c.1 < e.1 := (List.pairwise_cons.1 h.1).1
    rw [Cells.read_cons, List.mem_cons]
    by_cases hc : c.1 = a
    · subst hc
      have hnot : (c.1, v) ∉ m := fun hm => Nat.lt_irrefl _ (hlt (c.1, v) hm)
      have hd : c.2 ≠ d := h.2 c List.mem_cons_self
      rw [if_pos rfl, or_iff_left hnot, Prod.ext_iff]
      exact ⟨fun e => ⟨e.2.symm, fun hv => hd (e.2 ▸ hv)⟩, fun e => ⟨rfl, e.1.symm⟩⟩
    · have hne : (a, v) ≠ c := fun e => hc (congrArg Prod.fst e).symm
      rw [if_neg hc, or_iff_right hne, ih h.tail]

theorem Cells.Canonical.ext {α : Type} {d : α} {m m' : Cells α} (h : Cells.Canonical d m)
    (h' : Cells.Canonical d m') (hr : ∀ a, Cells.read d m a = Cells.read d m' a) : m = m' := by
  have hirrefl : Std.Irrefl fun c c' : Nat × α => c.1 < c'.1 := ⟨fun _ => Nat.lt_irrefl _⟩
  have hanti : Std.Antisymm fun c c' : Nat × α => c.1 < c'.1 :=
    ⟨fun _ _ hlt hgt => absurd hgt (Nat.lt_asymm hlt)⟩
  exact h.1.eq_of_mem_iff h'.1 fun (a, v) => by rw [h.mem_iff, h'.mem_iff, hr]

/-- Settles O48: both memories list the same cells, in the same order. -/
theorem canonicalMemoriesWithEqualReadsAreEqual :
    Obligations.CanonicalMemoriesWithEqualReadsAreEqual :=
  fun _ _ _ _ h h' hr => h.1.ext h'.1 hr

/-! ### The invariant along a run (10_state.md sections 5 to 10) -/

theorem State.Inv.finish {s : State} (h : s.Inv) (n : Nat) : (s.finish n).Inv :=
  (h.ppuBatch (3 * n)).nmiCheck

theorem State.Inv.advancePc {s : State} (h : s.Inv) (i : Instr) : (s.advancePc i).Inv := h.withCpu _

theorem State.Inv.step {s t : State} (h : s.Inv) (hst : Machine.step s = .next t) : t.Inv := by
  rcases step_cases s (live_of_step hst) with
    ⟨i, t0, _, _, _, hexec, hs⟩ | ⟨_, hs⟩ | ⟨i, _, _, hs⟩
  · obtain rfl := next_inj hs hst
    exact (exec_inv hexec (h.afterFetch.advancePc i)).finish _
  · obtain rfl := next_inj hs hst
    exact h.afterFetch.halt _
  · obtain rfl := next_inj hs hst
    exact h.afterFetch.halt _

theorem Reachable.inv {s : State} (h : Reachable s) : s.Inv := by
  induction h with
  | powerUp inp => exact powerUp_inv inp
  | step _ hst ih => exact ih.step hst
  | host a _ ih => exact ih.hostAct a

/-- Settles O60: power-up meets the invariant, and a step and a host action keep it. -/
theorem stepKeepsTheInvariant : Obligations.StepKeepsTheInvariant :=
  ⟨fun _ _ h hst => h.step hst, fun _ h => h.inv⟩

/-! ### Completion (60_exceptions.md sections 1 and 3) -/

/-- Settles O33: of the cases of the step, the two that halt are those without a well-formed
instruction. -/
theorem everyInstructionCompletesAndLiveStepsGoOn :
    Obligations.EveryInstructionCompletesAndLiveStepsGoOn := by
  refine ⟨fun i s => ?_, fun s hl => ?_⟩
  · obtain ⟨t, ht⟩ := exec_next i s
    exact ⟨t, ht, (exec_control ht).1⟩
  · rcases step_cases s hl with ⟨i, t, hf, hw, _, ht, hs⟩ | ⟨hf, hs⟩ | ⟨i, hf, hw, hs⟩
    · have hlive : (t.finish (cyclesOf s.params s.fetch0)).halted = false :=
        (finish_of_exec_halted ht).trans hl.2
      exact ⟨_, hs, fun hh => absurd (hlive.symm.trans hh) Bool.false_ne_true,
        fun h => absurd ((h i hf).symm.trans hw) Bool.false_ne_true⟩
    · exact ⟨_, hs, fun _ i hi => by simp [hf] at hi, fun _ => rfl⟩
    · refine ⟨_, hs, fun _ j hj => ?_, fun _ => rfl⟩
      rwa [← Option.some.inj (hf.symm.trans hj)]

/-! ### The PPU's position along a step (60_exceptions.md R169, R193) -/

/-- The bus moves no counter of the PPU, so no instruction does. -/
theorem exec_counters {i : Instr} {s t : State} (h : exec i s = .next t) :
    t.ppu.scanline = s.ppu.scanline ∧ t.ppu.dot = s.ppu.dot :=
  ⟨(exec_accesses h).keeps (f := fun s => s.ppu.scanline) (fun _ _ => rfl) State.touch_ppu_scanline
    fun a _ s v => s.memWrite_ppu_scanline a v,
   (exec_accesses h).keeps (f := fun s => s.ppu.dot) (fun _ _ => rfl) State.touch_ppu_dot
    fun a _ s v => s.memWrite_ppu_dot a v⟩

theorem exec_position {i : Instr} {s t : State} (h : exec i s = .next t) :
    t.ppu.position = s.ppu.position := by
  obtain ⟨hs, hd⟩ := exec_counters h
  rw [Ppu.position, hs, hd, Ppu.position]

theorem State.touch_position (s : State) (a : Word) : (s.touch a).ppu.position = s.ppu.position := by
  rw [Ppu.position, State.touch_ppu_scanline, State.touch_ppu_dot, Ppu.position]

theorem State.afterFetch_position (s : State) : s.afterFetch.ppu.position = s.ppu.position := by
  rw [State.afterFetch, State.touch_position, State.touch_position, State.touch_position]

/-- After the instruction the PPU still stands where it stood at the fetch. -/
theorem fetched_exec_position {i : Instr} {s t : State}
    (h : exec i (s.afterFetch.advancePc i) = .next t) : t.ppu.position = s.ppu.position :=
  (exec_position h).trans s.afterFetch_position

theorem State.nmiEntry_ppu (s : State) : s.nmiEntry.ppu = s.ppu := by rw [State.nmiEntry_eq]

theorem State.Inv.ppuBatch_position {s : State} (h : s.Inv) (n : Nat) :
    (s.ppuBatch n).ppu.position = (s.ppu.position + n) % 89342 :=
  Ppu.stepN_position h.ppu s.cart n

theorem State.Inv.clearNmi {s : State} (h : s.Inv) : State.Inv { s with nmiPending := false } :=
  { h with }

/-- The 21 dots of an NMI entry move the position by 21. -/
theorem State.Inv.finish_position {s : State} (h : s.Inv) (n : Nat) :
    (s.finish n).ppu.position =
      (s.ppu.position + 3 * n + if (s.ppuBatch (3 * n)).nmiPending then 21 else 0) % 89342 := by
  have hu := h.ppuBatch_position (3 * n)
  rw [State.finish_eq]
  split
  · rw [(h.ppuBatch _).clearNmi.nmiEntry.ppuBatch_position, State.nmiEntry_ppu, hu]
    exact Nat.mod_add_mod _ _ _
  · exact hu

/-- Settles O34: exec leaves the position, and the batch and the entry's dots move it. -/
theorem stepAdvancesThePpuByItsCycles : Obligations.StepAdvancesThePpuByItsCycles := by
  refine ⟨fun _ _ _ => exec_counters, fun s t hinv hst hhalt => ?_, fun c u n h =>
    Ppu.stepN_position h c n⟩
  rcases step_cases s (live_of_step hst) with
    ⟨i, t0, hf, _, _, hexec, hs⟩ | ⟨_, hs⟩ | ⟨_, _, _, hs⟩
  · obtain rfl := next_inj hs hst
    have ht0 : t0.Inv := exec_inv hexec (hinv.afterFetch.advancePc i)
    refine ⟨i, t0, hf, hexec, State.finish_eq _ _, ?_⟩
    rw [ht0.finish_position, fetched_exec_position hexec]
  · obtain rfl := next_inj hs hst
    cases hhalt
  · obtain rfl := next_inj hs hst
    cases hhalt

/-! ### No NMI is left pending (60_exceptions.md section 4) -/

theorem baseCycles_le (op : Byte) : baseCycles op ≤ 7 := by
  revert op; decide

theorem cyclesOf_le {ps : Params} (h : ps.Legal) (op : Byte) : cyclesOf ps op ≤ 7 := by
  unfold cyclesOf
  split
  next c hc => exact (h c (List.mem_of_find?_eq_some hc)).2
  · exact baseCycles_le op

/-- A request raised in a batch of at most 21 dots leaves the PPU in vblank, no further than 21 dots
from its start. -/
theorem Ppu.Inv.position_of_request {u : Ppu} (h : u.Inv) (c : Cart) {n : Nat} (hn : n ≤ 21)
    (hr : u.stepNRequest c n = true) :
    341 * 241 < (u.stepN c n).position ∧ (u.stepN c n).position ≤ 341 * 241 + 21 := by
  obtain ⟨-, k, hk, hpos⟩ := (Ppu.stepNRequest_iff h c n).1 hr
  rw [Ppu.stepN_position h]
  omega

theorem State.Inv.finish_nmiPending {s : State} (h : s.Inv) (hp : s.nmiPending = false) {n : Nat}
    (hn : n ≤ 7) : (s.finish n).nmiPending = false := by
  rw [State.finish_eq, State.ppuBatch_of_clear hp]
  split
  next hr =>
    have hpos := h.ppu.position_of_request s.cart (by omega) hr
    rw [State.ppuBatch_of_clear (State.nmiEntry_of_clear _), State.nmiEntry_ppu]
    exact (h.ppu.stepN _).no_request_in_vblank _ ⟨hpos.1, by omega⟩ (by omega)
  next hr => exact Bool.eq_false_of_not_eq_true hr

/-- Settles O35: a request is raised at vblank entry, at most 21 dots before the end of the batch, and
the entry's 21 dots stay within the vblank. -/
theorem noNmiIsPendingBetweenIterations : Obligations.NoNmiIsPendingBetweenIterations := by
  intro s t hinv hlegal hp hst
  have hfetch : s.afterFetch.nmiPending = false := by rw [State.afterFetch_nmiPending, hp]
  rcases step_cases s (live_of_step hst) with
    ⟨i, t0, _, _, _, hexec, hs⟩ | ⟨_, hs⟩ | ⟨_, _, _, hs⟩
  · obtain rfl := next_inj hs hst
    obtain ⟨_, _, hnmi, _, _⟩ := exec_control hexec
    exact (exec_inv hexec (hinv.afterFetch.advancePc i)).finish_nmiPending (hnmi.trans hfetch)
      (cyclesOf_le hlegal _)
  · obtain rfl := next_inj hs hst
    exact hfetch
  · obtain rfl := next_inj hs hst
    exact hfetch

end Sys2Proof.Machine
end

section
/-! PROOFS of the family other, part 3: what an instruction leaves unchanged. Plain memory outside the
cells it stores to, and each register and flag that it is not a writer of. -/

namespace Sys2Proof.Machine

open Sys2Proof.Claims

/-! ### Plain memory (20_memory.md R53 to R58, R62) -/

/-- A read of plain memory looks at work RAM, save RAM and program ROM only. -/
theorem State.peek_congr_of_plain {s t : State} {a : Word} (ha : Plain a)
    (hw : a.toNat ≤ 0x1FFF → t.wram.read (a.toNat % 0x800) = s.wram.read (a.toNat % 0x800))
    (hr : 0x6000 ≤ a.toNat → a.toNat < 0x8000 →
      t.cart.sramRead (a.toNat - 0x6000) = s.cart.sramRead (a.toNat - 0x6000))
    (hp : t.cart.prgRead a = s.cart.prgRead a) : t.peek a = s.peek a := by
  obtain ⟨hport, hctrl⟩ := ha
  by_cases h1 : a.toNat ≤ 0x1FFF
  · rw [t.peek_wram a h1, s.peek_wram a h1, hw h1]
  by_cases h2 : a.toNat < 0x6000
  · rw [t.peek_inert (by omega) h2 hctrl, s.peek_inert (by omega) h2 hctrl]
  by_cases h3 : a.toNat < 0x8000
  · rw [t.peek_sram (by omega) h3, s.peek_sram (by omega) h3, hr (by omega) h3]
  · rw [t.peek_rom a (by omega), s.peek_rom a (by omega), hp]

theorem State.touch_peek_of_plain (s : State) {a : Word} (ha : Plain a) (b : Word) :
    (s.touch b).peek a = s.peek a := by
  refine State.peek_congr_of_plain ha (fun _ => ?_) (fun _ _ => ?_) ?_
  · rw [State.touch_wram]
  · rw [State.touch_cart]
  · rw [State.touch_cart]

theorem Cart.chrWrite_sramRead (c : Cart) (x : Nat) (v : Byte) (i : Nat) :
    (c.chrWrite x v).sramRead i = c.sramRead i := by
  unfold Cart.chrWrite
  split <;> rfl

theorem Cart.chrWrite_prgRead (c : Cart) (x : Nat) (v : Byte) (a : Word) :
    (c.chrWrite x v).prgRead a = c.prgRead a := by
  unfold Cart.chrWrite
  split <;> rfl

theorem Ppu.portWriteCart_eq_or_chrWrite (c : Cart) (u : Ppu) (r : Port) (v : Byte) :
    u.portWriteCart c r v = c ∨ ∃ x, u.portWriteCart c r v = c.chrWrite x v := by
  cases r with
  | data =>
    simp only [Ppu.portWriteCart, Ppu.writeCart]
    split
    · exact .inr ⟨_, rfl⟩
    · exact .inl rfl
  | ctrl | mask | status | oamAddr | oamData | scroll | addr => exact .inl rfl

theorem Ppu.portWriteCart_sramRead (c : Cart) (u : Ppu) (r : Port) (v : Byte) (i : Nat) :
    (u.portWriteCart c r v).sramRead i = c.sramRead i := by
  rcases u.portWriteCart_eq_or_chrWrite c r v with h | ⟨x, h⟩
  · rw [h]
  · rw [h, Cart.chrWrite_sramRead]

theorem Ppu.portWriteCart_prgRead (c : Cart) (u : Ppu) (r : Port) (v : Byte) (a : Word) :
    (u.portWriteCart c r v).prgRead a = c.prgRead a := by
  rcases u.portWriteCart_eq_or_chrWrite c r v with h | ⟨x, h⟩
  · rw [h]
  · rw [h, Cart.chrWrite_prgRead]

theorem Cart.sramWrite_prgRead (c : Cart) (j : Nat) (v : Byte) (a : Word) :
    (c.sramWrite j v).prgRead a = c.prgRead a := by
  unfold Cart.sramWrite
  split <;> rfl

theorem Cart.sramWrite_sramRead_of_ne (c : Cart) {i j : Nat} (v : Byte) (h : i ≠ j) :
    (c.sramWrite j v).sramRead i = c.sramRead i := by
  unfold Cart.sramWrite
  split
  next hc => simp only [Cart.sramRead, hc, if_true, Memory.read_write_of_ne _ _ h]
  · rfl

/-- A bus write reaches no byte of plain memory but that of its own cell. -/
theorem State.memWrite_peek_of_plain (s : State) {a b : Word} (ha : Plain a) (hne : ¬ SameCell a b)
    (v : Byte) : (s.memWrite b v).peek a = s.peek a := by
  have hab : a.toNat ≠ b.toNat := fun e => hne (.inl (BitVec.eq_of_toNat_eq e))
  unfold State.memWrite
  split_ifs with hram hport hdma hctrl hio hsram
  · exact State.peek_congr_of_plain ha
      (fun h => Memory.read_write_of_ne _ _ fun e => hne (.inr ⟨h, hram, e⟩)) (fun _ _ => rfl) rfl
  · exact State.peek_congr_of_plain ha (fun _ => rfl)
      (fun _ _ => Ppu.portWriteCart_sramRead _ _ _ _ _) (Ppu.portWriteCart_prgRead _ _ _ _ _)
  · refine State.peek_congr_of_plain ha (fun _ => ?_) (fun _ _ => ?_) ?_
    · rw [State.oamDma_wram]
    · rw [State.oamDma_cart]
    · rw [State.oamDma_cart]
  · exact State.peek_congr_of_plain ha (fun _ => rfl) (fun _ _ => rfl) rfl
  · rfl
  · exact State.peek_congr_of_plain ha (fun _ => rfl)
      (fun _ _ => Cart.sramWrite_sramRead_of_ne _ _ (by omega)) (Cart.sramWrite_prgRead _ _ _ _)
  · rfl

/-- Settles O40: an instruction reaches memory by bus reads, which change no plain byte, and by the
bus writes `State.stores` lists. -/
theorem memoryChangesOnlyWhereAnInstructionStores :
    Obligations.MemoryChangesOnlyWhereAnInstructionStores :=
  fun _ _ _ h a ha hl => (exec_accesses h).keeps (f := fun s => s.peek a) (fun _ _ => rfl)
    (fun s b => s.touch_peek_of_plain ha b) fun b hb s v => s.memWrite_peek_of_plain ha (hl b hb) v

/-! ### The writers of the registers and flags (10_state.md sections 1 to 3) -/

/-- Two status bytes whose flags are equal but for those of `fs`. -/
def KeepsFlags (fs : List Flag) (p q : Byte) : Prop := ∀ f ∉ fs, getFlag q f = getFlag p f

namespace KeepsFlags

variable {fs : List Flag} {p q : Byte}

theorem refl : KeepsFlags fs p p := fun _ _ => rfl

theorem setFlag (h : KeepsFlags fs p q) (f : Flag) (b : Bool) (hf : f ∈ fs := by decide) :
    KeepsFlags fs p (Machine.setFlag q f b) := fun g hg => by
  rw [getFlag_setFlag, if_neg (ne_of_mem_of_not_mem hf hg).symm, h g hg]

theorem setZN (h : KeepsFlags fs p q) (v : Byte) (hz : .z ∈ fs := by decide)
    (hn : .n ∈ fs := by decide) : KeepsFlags fs p (Machine.setZN q v) :=
  (h.setFlag .z _ hz).setFlag .n _ hn

theorem adc (p a m : Byte) : KeepsFlags [.c, .z, .v, .n] p (Machine.adc p a m).2 :=
  ((refl.setFlag .c _).setFlag .v _).setZN _

theorem sbc (p a m : Byte) : KeepsFlags [.c, .z, .v, .n] p (Machine.sbc p a m).2 := adc p a _

theorem compare (p l m : Byte) : KeepsFlags [.c, .z, .n] p (Machine.compare p l m) :=
  ((refl.setFlag .c _).setFlag .z _).setFlag .n _

theorem bitTest (p a m : Byte) : KeepsFlags [.z, .v, .n] p (Machine.bitTest p a m) :=
  ((refl.setFlag .z _).setFlag .n _).setFlag .v _

theorem asl (p v : Byte) : KeepsFlags [.c, .z, .n] p (Machine.asl p v).2 := refl.setFlag .c _

theorem lsr (p v : Byte) : KeepsFlags [.c, .z, .n] p (Machine.lsr p v).2 := refl.setFlag .c _

theorem rol (p v : Byte) : KeepsFlags [.c, .z, .n] p (Machine.rol p v).2 := refl.setFlag .c _

theorem ror (p v : Byte) : KeepsFlags [.c, .z, .n] p (Machine.ror p v).2 := refl.setFlag .c _

theorem inc (p v : Byte) : KeepsFlags [.z, .n] p (Machine.inc p v).2 := refl

theorem dec (p v : Byte) : KeepsFlags [.z, .n] p (Machine.dec p v).2 := refl

theorem all (p q : Byte) : KeepsFlags [.c, .z, .i, .d, .b, .u, .v, .n] p q := fun f hf =>
  absurd (by cases f <;> decide) hf

end KeepsFlags

/-- The five registers beside P. -/
inductive Reg where
  | a | x | y | s | pc
  deriving DecidableEq

/-- The second state has the registers of the first but for `rs`, and its flags but for `fs`. -/
structure Changes (rs : List Reg) (fs : List Flag) (s t : State) : Prop where
  keeps_a : .a ∉ rs → t.cpu.a = s.cpu.a
  keeps_x : .x ∉ rs → t.cpu.x = s.cpu.x
  keeps_y : .y ∉ rs → t.cpu.y = s.cpu.y
  keeps_s : .s ∉ rs → t.cpu.s = s.cpu.s
  keeps_pc : .pc ∉ rs → t.cpu.pc = s.cpu.pc
  keeps_flags : KeepsFlags fs s.cpu.p t.cpu.p

namespace Changes

variable {rs : List Reg} {fs : List Flag} {s t t' : State}

theorem none : Changes rs fs s s :=
  ⟨fun _ => rfl, fun _ => rfl, fun _ => rfl, fun _ => rfl, fun _ => rfl, .refl⟩

/-! One more operation: it leaves the registers, or writes one that is listed. -/

theorem congr_cpu (h : Changes rs fs s t) (e : t'.cpu = t.cpu) : Changes rs fs s t' := by
  obtain ⟨ha, hx, hy, hs, hpc, hp⟩ := h
  rw [← e] at ha hx hy hs hpc hp
  exact ⟨ha, hx, hy, hs, hpc, hp⟩

theorem touch (h : Changes rs fs s t) (a : Word) : Changes rs fs s (t.touch a) :=
  h.congr_cpu (t.touch_cpu a)

theorem memWrite (h : Changes rs fs s t) (a : Word) (v : Byte) : Changes rs fs s (t.memWrite a v) :=
  h.congr_cpu (t.memWrite_cpu a v)

theorem setA (h : Changes rs fs s t) (v : Byte) (hr : .a ∈ rs := by decide) :
    Changes rs fs s (t.setA v) :=
  { h with keeps_a := fun hn => absurd hr hn }

theorem setX (h : Changes rs fs s t) (v : Byte) (hr : .x ∈ rs := by decide) :
    Changes rs fs s (t.setX v) :=
  { h with keeps_x := fun hn => absurd hr hn }

theorem setY (h : Changes rs fs s t) (v : Byte) (hr : .y ∈ rs := by decide) :
    Changes rs fs s (t.setY v) :=
  { h with keeps_y := fun hn => absurd hr hn }

theorem setS (h : Changes rs fs s t) (v : Byte) (hr : .s ∈ rs := by decide) :
    Changes rs fs s (t.setS v) :=
  { h with keeps_s := fun hn => absurd hr hn }

theorem setPc (h : Changes rs fs s t) (w : Word) (hr : .pc ∈ rs := by decide) :
    Changes rs fs s (t.setPc w) :=
  { h with keeps_pc := fun hn => absurd hr hn }

theorem setP (h : Changes rs fs s t) {p : Byte} (hp : KeepsFlags fs s.cpu.p p) :
    Changes rs fs s (t.setP p) :=
  { h with keeps_flags := hp }

theorem putFlag (h : Changes rs fs s t) (f : Flag) (b : Bool) (hf : f ∈ fs := by decide) :
    Changes rs fs s (t.putFlag f b) :=
  h.setP (h.keeps_flags.setFlag f b hf)

theorem setZN (h : Changes rs fs s t) (v : Byte) (hz : .z ∈ fs := by decide)
    (hn : .n ∈ fs := by decide) : Changes rs fs s (t.setZN v) :=
  h.setP (h.keeps_flags.setZN v hz hn)

theorem push (h : Changes rs fs s t) (v : Byte) (hr : .s ∈ rs := by decide) :
    Changes rs fs s (t.push v) :=
  (h.memWrite _ v).setS _ hr

theorem pull (h : Changes rs fs s t) (hr : .s ∈ rs := by decide) : Changes rs fs s t.pull :=
  h.setS _ hr

theorem operand (s : State) (m : Source) : Changes rs fs s (s.afterOperand m) :=
  none.congr_cpu (s.afterOperand_cpu m)

/-! The shared operations of the meanings. -/

theorem loadA (s : State) (m : Source) : Changes [.a] [.z, .n] s (s.loadA m) :=
  ((operand s m).setA _).setZN _

theorem loadX (s : State) (m : Source) : Changes [.x] [.z, .n] s (s.loadX m) :=
  ((operand s m).setX _).setZN _

theorem loadY (s : State) (m : Source) : Changes [.y] [.z, .n] s (s.loadY m) :=
  ((operand s m).setY _).setZN _

theorem addA (s : State) (m : Source) : Changes [.a] [.c, .z, .v, .n] s (s.addA m) :=
  ((operand s m).setA _).setP (.adc _ _ _)

theorem subA (s : State) (m : Source) : Changes [.a] [.c, .z, .v, .n] s (s.subA m) :=
  ((operand s m).setA _).setP (.sbc _ _ _)

theorem logicA (s : State) (op : Byte → Byte → Byte) (m : Source) :
    Changes [.a] [.z, .n] s (s.logicA op m) :=
  ((operand s m).setA _).setZN _

theorem testA (s : State) (f : MemForm) : Changes [] [.z, .v, .n] s (s.testA f) :=
  (operand s _).setP (.bitTest _ _ _)

theorem compareWith (s : State) (l : Byte) (m : Source) :
    Changes [] [.c, .z, .n] s (s.compareWith l m) :=
  (operand s m).setP (.compare _ _ _)

/-- A read-modify-write with Z and N of its result writes A in the accumulator form only. -/
theorem rmw_acc {g : Byte → Byte → Byte × Byte} (hg : ∀ p v, KeepsFlags fs p (g p v).2)
    (hz : .z ∈ fs := by decide) (hn : .n ∈ fs := by decide) : Changes [.a] fs s (s.rmw g .acc) :=
  ((none.setP (hg _ _)).setA _).setZN _ hz hn

theorem rmw_mem {g : Byte → Byte → Byte × Byte} (hg : ∀ p v, KeepsFlags fs p (g p v).2) (f : MemForm)
    (hz : .z ∈ fs := by decide) (hn : .n ∈ fs := by decide) :
    Changes [] fs s (s.rmw g (.mem f)) :=
  (((none.touch _).setP (hg _ _)).memWrite _ _).setZN _ hz hn

theorem jump (s : State) (w : Word) : Changes [.pc] [] s (s.setPc w) := none.setPc w

theorem branch (s : State) (taken : Bool) (d : Byte) : Changes [.pc] [] s (s.branch taken d) := by
  cases taken with
  | false => exact none
  | true => exact jump s _

theorem indirect (s : State) (w v : Word) : Changes [.pc] [] s ((s.afterIndirect w).setPc v) :=
  ((none.touch _).touch _).setPc v

theorem call (s : State) (ret w : Word) : Changes [.s, .pc] [] s ((s.push16 ret).setPc w) :=
  ((none.push _).push _).setPc w

theorem interruptEntry (s : State) (ret : Word) (pushed : Byte) (vec : Word) :
    Changes [.s, .pc] [.i] s (s.interruptEntry ret pushed vec) := by
  have h : Changes [.s, .pc] [.i] s ((s.push16 ret).push pushed) := ((none.push _).push _).push _
  exact (h.putFlag .i true).setPc _

theorem interruptReturn (s : State) :
    Changes [.s, .pc] [.c, .z, .i, .d, .b, .u, .v, .n] s s.interruptReturn := by
  have h : Changes [.s, .pc] [.c, .z, .i, .d, .b, .u, .v, .n] s (s.pull.setP s.pulled) :=
    none.pull.setP (.all _ _)
  exact (h.pull.pull).setPc _

end Changes

/-- The registers a mnemonic writes; the accumulator mode is apart. -/
def regsOf : Mnemonic → List Reg
  | .lda | .txa | .tya | .adc | .sbc | .and | .ora | .eor => [.a]
  | .ldx | .tax | .tsx | .inx | .dex => [.x]
  | .ldy | .tay | .iny | .dey => [.y]
  | .txs | .pha | .php | .plp => [.s]
  | .pla => [.a, .s]
  | .bcc | .bcs | .beq | .bmi | .bne | .bpl | .bvc | .bvs | .jmp => [.pc]
  | .jsr | .rts | .brk | .rti => [.s, .pc]
  | _ => []

/-- The flags a mnemonic writes. -/
def flagsOf : Mnemonic → List Flag
  | .lda | .ldx | .ldy | .tax | .tay | .txa | .tya | .tsx | .pla | .and | .ora | .eor | .inc | .dec
  | .inx | .iny | .dex | .dey => [.z, .n]
  | .adc | .sbc => [.c, .z, .v, .n]
  | .cmp | .cpx | .cpy | .asl | .lsr | .rol | .ror => [.c, .z, .n]
  | .bit => [.z, .v, .n]
  | .clc | .sec => [.c]
  | .cli | .sei | .brk => [.i]
  | .cld | .sed => [.d]
  | .clv => [.v]
  | .plp | .rti => [.c, .z, .i, .d, .b, .u, .v, .n]
  | _ => []

/-- The registers an instruction writes: in the accumulator mode A, else those of its mnemonic. -/
def writtenRegs (i : Instr) : List Reg := if i.mode = .acc then [.a] else regsOf i.mnemonic

/-- An instruction writes no register and no flag but those of its row. -/
theorem exec_changes (i : Instr) (s : State) :
    ∃ t, exec i s = .next t ∧ Changes (writtenRegs i) (flagsOf i.mnemonic) s t := by
  cases i with
  | ldaImm _ | ldaZp _ | ldaZpx _ | ldaAbs _ | ldaAbsx _ | ldaAbsy _ | ldaIndx _ | ldaIndy _ =>
    exact ⟨_, rfl, .loadA s _⟩
  | ldxImm _ | ldxZp _ | ldxZpy _ | ldxAbs _ | ldxAbsy _ => exact ⟨_, rfl, .loadX s _⟩
  | ldyImm _ | ldyZp _ | ldyZpx _ | ldyAbs _ | ldyAbsx _ => exact ⟨_, rfl, .loadY s _⟩
  | staZp _ | staZpx _ | staAbs _ | staAbsx _ | staAbsy _ | staIndx _ | staIndy _
  | stxZp _ | stxZpy _ | stxAbs _ | styZp _ | styZpx _ | styAbs _ =>
    exact ⟨_, rfl, Changes.none.memWrite _ _⟩
  | tax | tsx | inx | dex => exact ⟨_, rfl, (Changes.none.setX _).setZN _⟩
  | tay | iny | dey => exact ⟨_, rfl, (Changes.none.setY _).setZN _⟩
  | txa | tya => exact ⟨_, rfl, (Changes.none.setA _).setZN _⟩
  | txs => exact ⟨_, rfl, Changes.none.setS _⟩
  | adcImm _ | adcZp _ | adcZpx _ | adcAbs _ | adcAbsx _ | adcAbsy _ | adcIndx _ | adcIndy _ =>
    exact ⟨_, rfl, .addA s _⟩
  | sbcImm _ | sbcZp _ | sbcZpx _ | sbcAbs _ | sbcAbsx _ | sbcAbsy _ | sbcIndx _ | sbcIndy _ =>
    exact ⟨_, rfl, .subA s _⟩
  | andImm _ | andZp _ | andZpx _ | andAbs _ | andAbsx _ | andAbsy _ | andIndx _ | andIndy _
  | oraImm _ | oraZp _ | oraZpx _ | oraAbs _ | oraAbsx _ | oraAbsy _ | oraIndx _ | oraIndy _
  | eorImm _ | eorZp _ | eorZpx _ | eorAbs _ | eorAbsx _ | eorAbsy _ | eorIndx _ | eorIndy _ =>
    exact ⟨_, rfl, .logicA s _ _⟩
  | bitZp _ | bitAbs _ => exact ⟨_, rfl, .testA s _⟩
  | cmpImm _ | cmpZp _ | cmpZpx _ | cmpAbs _ | cmpAbsx _ | cmpAbsy _ | cmpIndx _ | cmpIndy _
  | cpxImm _ | cpxZp _ | cpxAbs _ | cpyImm _ | cpyZp _ | cpyAbs _ =>
    exact ⟨_, rfl, .compareWith s _ _⟩
  | incZp _ | incZpx _ | incAbs _ | incAbsx _ => exact ⟨_, rfl, .rmw_mem .inc _⟩
  | decZp _ | decZpx _ | decAbs _ | decAbsx _ => exact ⟨_, rfl, .rmw_mem .dec _⟩
  | aslAcc => exact ⟨_, rfl, .rmw_acc .asl⟩
  | lsrAcc => exact ⟨_, rfl, .rmw_acc .lsr⟩
  | rolAcc => exact ⟨_, rfl, .rmw_acc .rol⟩
  | rorAcc => exact ⟨_, rfl, .rmw_acc .ror⟩
  | aslZp _ | aslZpx _ | aslAbs _ | aslAbsx _ => exact ⟨_, rfl, .rmw_mem .asl _⟩
  | lsrZp _ | lsrZpx _ | lsrAbs _ | lsrAbsx _ => exact ⟨_, rfl, .rmw_mem .lsr _⟩
  | rolZp _ | rolZpx _ | rolAbs _ | rolAbsx _ => exact ⟨_, rfl, .rmw_mem .rol _⟩
  | rorZp _ | rorZpx _ | rorAbs _ | rorAbsx _ => exact ⟨_, rfl, .rmw_mem .ror _⟩
  | bcc _ | bcs _ | beq _ | bmi _ | bne _ | bpl _ | bvc _ | bvs _ => exact ⟨_, rfl, .branch s _ _⟩
  | jmpAbs _ => exact ⟨_, rfl, .jump s _⟩
  | jmpInd _ => exact ⟨_, rfl, .indirect s _ _⟩
  | jsrAbs _ => exact ⟨_, rfl, .call s _ _⟩
  | rts => exact ⟨_, rfl, (Changes.none.pull.pull).setPc _⟩
  | pha | php => exact ⟨_, rfl, Changes.none.push _⟩
  | pla => exact ⟨_, rfl, (Changes.none.pull.setA _).setZN _⟩
  | plp => exact ⟨_, rfl, Changes.none.pull.setP (.all _ _)⟩
  | clc | cld | cli | clv | sec | sed | sei => exact ⟨_, rfl, Changes.none.putFlag _ _⟩
  | brk => exact ⟨_, rfl, .interruptEntry s _ _ _⟩
  | rti => exact ⟨_, rfl, .interruptReturn s⟩
  | nop => exact ⟨_, rfl, Changes.none⟩

/-- The mnemonics are numbered 0 to 55, so that a claim about each of them is one about 56 numbers. -/
theorem mnemonic_eq_ofNat (m : Mnemonic) : ∃ n < 56, Mnemonic.ofNat n = m :=
  ⟨m.ctorIdx, by cases m <;> decide, by cases m <;> rfl⟩

theorem mem_writtenRegs {i : Instr} {r : Reg} (h : r ∈ writtenRegs i) :
    (i.mode = .acc ∧ r = .a) ∨ r ∈ regsOf i.mnemonic := by
  unfold writtenRegs at h
  split at h
  next hm => exact .inl ⟨hm, List.mem_singleton.1 h⟩
  · exact .inr h

/-- Settles O41: the statement lists, for each register and flag, the mnemonics whose row names it. -/
theorem registersAndFlagsChangeOnlyByTheirWriters :
    Obligations.RegistersAndFlagsChangeOnlyByTheirWriters := by
  intro i s t h
  dsimp only
  obtain ⟨t', ht', hc⟩ := exec_changes i s
  obtain rfl := next_inj ht' h
  have hreg {r : Reg} (hr : r ≠ .a) (hm : r ∉ regsOf i.mnemonic) : r ∉ writtenRegs i := fun hw =>
    (mem_writtenRegs hw).elim (fun e => hr e.2) hm
  have hacc (hm : i.mode ≠ .acc) (ha : .a ∉ regsOf i.mnemonic) : .a ∉ writtenRegs i := fun hw =>
    (mem_writtenRegs hw).elim (fun e => hm e.1) ha
  have hflag (f : Flag) (hf : f ∉ flagsOf i.mnemonic) : t'.flag f = s.flag f := hc.keeps_flags f hf
  refine ⟨fun hm ha => hc.keeps_a (hacc ha ?_), fun hm => hc.keeps_x (hreg (by decide) ?_),
    fun hm => hc.keeps_y (hreg (by decide) ?_), fun hm => hc.keeps_s (hreg (by decide) ?_),
    fun hm => hc.keeps_pc (hreg (by decide) ?_), fun hm => hflag _ ?_, fun hm => hflag _ ?_,
    fun hm => hflag _ ?_, fun hm => hflag _ ?_, fun hm => ⟨hflag _ ?_, hflag _ ?_⟩,
    fun hm => ⟨hflag _ ?_, hflag _ ?_⟩, exec_control h⟩
  all_goals
    revert hm
    generalize i.mnemonic = m
    obtain ⟨n, hn, rfl⟩ := mnemonic_eq_ofNat m
    revert n
    decide

end Sys2Proof.Machine
end

section
/-! PROOFS of the family other, part 4: relations between runs. D is not read by any instruction but its
six, and a return undoes the call or the entry before it. -/

namespace Sys2Proof.Machine

open Sys2Proof.Claims

/-! ### D is written and not read (42_arithmetic_logic.md section 1, 10_state.md section 3) -/

/-- Writes of two different flags commute. -/
theorem setFlag_comm (p : Byte) {f g : Flag} (h : f ≠ g) (b c : Bool) :
    setFlag (setFlag p f b) g c = setFlag (setFlag p g c) f b := by
  have hbit : f.bit ≠ g.bit := by revert h; cases f <;> cases g <;> decide
  refine byte_ext fun i _ => ?_
  simp only [setFlag, getLsbD_setBit]
  by_cases hf : i = f.bit
  · simp [hf, hbit]
  · simp [hf]

section

variable (d : Bool)

/-- The status byte with D made `d`. -/
abbrev putD (p : Byte) : Byte := setFlag p .d d

theorem setFlag_putD (p : Byte) {f : Flag} (h : f ≠ .d) (b : Bool) :
    setFlag (putD d p) f b = putD d (setFlag p f b) :=
  setFlag_comm p h.symm d b

theorem getFlag_putD (p : Byte) {f : Flag} (h : f ≠ .d) : getFlag (putD d p) f = getFlag p f := by
  rw [putD, getFlag_setFlag, if_neg h]

theorem setZN_putD (p v : Byte) : setZN (putD d p) v = putD d (setZN p v) := by
  rw [setZN, setZN, setFlag_putD d p (by decide), setFlag_putD d _ (by decide)]

/-- ADC adds in binary whatever D is. -/
theorem adc_putD (p a m : Byte) : adc (putD d p) a m = ((adc p a m).1, putD d (adc p a m).2) := by
  simp only [adc, getFlag_putD d p (f := .c) (by decide), setFlag_putD d _ (f := .c) (by decide),
    setFlag_putD d _ (f := .v) (by decide), setZN_putD]

theorem compare_putD (p l m : Byte) : compare (putD d p) l m = putD d (compare p l m) := by
  simp only [compare, setFlag_putD d _ (f := .c) (by decide), setFlag_putD d _ (f := .z) (by decide),
    setFlag_putD d _ (f := .n) (by decide)]

theorem bitTest_putD (p a m : Byte) : bitTest (putD d p) a m = putD d (bitTest p a m) := by
  simp only [bitTest, setFlag_putD d _ (f := .v) (by decide), setFlag_putD d _ (f := .z) (by decide),
    setFlag_putD d _ (f := .n) (by decide)]

end

/-- An operation on P and a byte whose result does not depend on D, and which keeps D. -/
def BlindToD (g : Byte → Byte → Byte × Byte) : Prop :=
  ∀ d p v, g (putD d p) v = ((g p v).1, putD d (g p v).2)

theorem asl_blindToD : BlindToD asl := fun d p v => by rw [asl, setFlag_putD d p (by decide)]; rfl

theorem lsr_blindToD : BlindToD lsr := fun d p v => by rw [lsr, setFlag_putD d p (by decide)]; rfl

theorem rol_blindToD : BlindToD rol := fun d p v => by
  rw [rol, setFlag_putD d p (by decide), getFlag_putD d p (by decide)]; rfl

theorem ror_blindToD : BlindToD ror := fun d p v => by
  rw [ror, setFlag_putD d p (by decide), getFlag_putD d p (by decide)]; rfl

theorem inc_blindToD : BlindToD inc := fun _ _ _ => rfl

theorem dec_blindToD : BlindToD dec := fun _ _ _ => rfl

/-! Every operation takes the state with D made `d` to its own result with D made `d`. -/

/-- The state with D made `d`. -/
def State.putD (s : State) (d : Bool) : State := s.putFlag .d d

section

variable (s : State) (d : Bool) (v : Byte)

/-! What does not depend on D. -/

theorem State.putD_cpu_p : (s.putD d).cpu.p = Machine.putD d s.cpu.p := rfl
theorem State.putD_peek (a : Word) : (s.putD d).peek a = s.peek a := rfl
theorem State.putD_ea (f : MemForm) : (s.putD d).ea f = s.ea f := by cases f <;> rfl
theorem State.putD_operand (m : Source) : (s.putD d).operand m = s.operand m := by
  cases m with
  | imm v => rfl
  | mem f => exact congrArg s.peek (s.putD_ea d f)

theorem State.putD_flag {f : Flag} (h : f ≠ .d) : (s.putD d).flag f = s.flag f :=
  getFlag_putD d s.cpu.p h

/-! The updates. -/

theorem State.putD_setA : (s.putD d).setA v = (s.setA v).putD d := rfl
theorem State.putD_setX : (s.putD d).setX v = (s.setX v).putD d := rfl
theorem State.putD_setY : (s.putD d).setY v = (s.setY v).putD d := rfl
theorem State.putD_setS : (s.putD d).setS v = (s.setS v).putD d := rfl
theorem State.putD_setPc (w : Word) : (s.putD d).setPc w = (s.setPc w).putD d := rfl
theorem State.putD_setP (p : Byte) : (s.putD d).setP (Machine.putD d p) = (s.setP p).putD d := rfl

theorem State.putD_setZN : (s.putD d).setZN v = (s.setZN v).putD d :=
  congrArg s.setP (setZN_putD d s.cpu.p v)

theorem State.putD_putFlag {f : Flag} (h : f ≠ .d) (b : Bool) :
    (s.putD d).putFlag f b = (s.putFlag f b).putD d :=
  congrArg s.setP (setFlag_putD d s.cpu.p h b)

theorem State.putD_touch (a : Word) : (s.putD d).touch a = (s.touch a).putD d := by
  rw [State.putD, State.putFlag, State.setP_touch, State.putD, State.putFlag, State.touch_cpu]

theorem State.putD_memWrite (a : Word) : (s.putD d).memWrite a v = (s.memWrite a v).putD d := by
  rw [State.putD, State.putFlag, State.setP_memWrite, State.putD, State.putFlag, State.memWrite_cpu]

/-! The shared operations of the meanings. -/

theorem State.putD_afterOperand (m : Source) :
    (s.putD d).afterOperand m = (s.afterOperand m).putD d := by
  cases m with
  | imm v => rfl
  | mem f => rw [State.afterOperand, State.putD_ea, State.putD_touch]; rfl

theorem State.putD_loadA (m : Source) : (s.putD d).loadA m = (s.loadA m).putD d := by
  simp only [State.loadA, putD_operand, putD_afterOperand, putD_setA, putD_setZN]

theorem State.putD_loadX (m : Source) : (s.putD d).loadX m = (s.loadX m).putD d := by
  simp only [State.loadX, putD_operand, putD_afterOperand, putD_setX, putD_setZN]

theorem State.putD_loadY (m : Source) : (s.putD d).loadY m = (s.loadY m).putD d := by
  simp only [State.loadY, putD_operand, putD_afterOperand, putD_setY, putD_setZN]

theorem State.putD_store (f : MemForm) : (s.putD d).store f v = (s.store f v).putD d := by
  rw [State.store, putD_ea, putD_memWrite]; rfl

theorem State.putD_addA (m : Source) : (s.putD d).addA m = (s.addA m).putD d := by
  simp only [State.addA, putD_cpu_p, adc_putD, putD_operand, putD_afterOperand, putD_setA, putD_setP]
  rfl

theorem State.putD_subA (m : Source) : (s.putD d).subA m = (s.subA m).putD d := by
  simp only [State.subA, putD_cpu_p, sbc, adc_putD, putD_operand, putD_afterOperand, putD_setA,
    putD_setP]
  rfl

theorem State.putD_logicA (op : Byte → Byte → Byte) (m : Source) :
    (s.putD d).logicA op m = (s.logicA op m).putD d := by
  simp only [State.logicA, putD_operand, putD_afterOperand, putD_setA, putD_setZN]
  rfl

theorem State.putD_testA (f : MemForm) : (s.putD d).testA f = (s.testA f).putD d := by
  simp only [State.testA, putD_cpu_p, bitTest_putD, putD_operand, putD_afterOperand, putD_setP]
  rfl

theorem State.putD_compareWith (l : Byte) (m : Source) :
    (s.putD d).compareWith l m = (s.compareWith l m).putD d := by
  simp only [State.compareWith, putD_cpu_p, compare_putD, putD_operand, putD_afterOperand, putD_setP]

theorem State.putD_rmw {g : Byte → Byte → Byte × Byte} (hg : BlindToD g) (m : RmwForm) :
    (s.putD d).rmw g m = (s.rmw g m).putD d := by
  cases m with
  | acc =>
    simp only [State.rmw, putD_cpu_p, hg d, putD_setP, putD_setA, putD_setZN]
    rfl
  | mem f =>
    simp only [State.rmw, putD_cpu_p, hg d, putD_ea, putD_peek, putD_touch, putD_setP, putD_memWrite,
      putD_setZN]

theorem State.putD_branch {c c' : Bool} (hc : c' = c) (w : Byte) :
    (s.putD d).branch c' w = (s.branch c w).putD d := by
  subst hc
  cases c' <;> rfl

theorem State.putD_afterIndirect (w : Word) :
    (s.putD d).afterIndirect w = (s.afterIndirect w).putD d := by
  rw [State.afterIndirect, putD_touch, putD_touch]; rfl

theorem State.putD_indirectTarget (w : Word) : (s.putD d).indirectTarget w = s.indirectTarget w := by
  rw [State.indirectTarget, putD_touch]; rfl

theorem State.putD_push : (s.putD d).push v = (s.push v).putD d := by
  simp only [State.push, putD_memWrite, putD_setS]
  rfl

theorem State.putD_push16 (w : Word) : (s.putD d).push16 w = (s.push16 w).putD d := by
  rw [State.push16, putD_push, putD_push]; rfl

end

theorem next_congr {s t : State} (h : s = t) : (.next s : Result) = .next t := congrArg _ h

/-- The instructions that read or write D. -/
def dUsers : List Mnemonic := [.cld, .sed, .plp, .rti, .php, .brk]

/-- Every other instruction, run with D made `d`, ends in its own result with D made `d`. -/
theorem exec_putD (i : Instr) (s : State) (d : Bool) (hi : i.mnemonic ∉ dUsers) :
    ∃ t, exec i s = .next t ∧ exec i (s.putD d) = .next (t.putD d) := by
  cases i with
  | ldaImm _ | ldaZp _ | ldaZpx _ | ldaAbs _ | ldaAbsx _ | ldaAbsy _ | ldaIndx _ | ldaIndy _ =>
    exact ⟨_, rfl, next_congr (s.putD_loadA d _)⟩
  | ldxImm _ | ldxZp _ | ldxZpy _ | ldxAbs _ | ldxAbsy _ =>
    exact ⟨_, rfl, next_congr (s.putD_loadX d _)⟩
  | ldyImm _ | ldyZp _ | ldyZpx _ | ldyAbs _ | ldyAbsx _ =>
    exact ⟨_, rfl, next_congr (s.putD_loadY d _)⟩
  | staZp _ | staZpx _ | staAbs _ | staAbsx _ | staAbsy _ | staIndx _ | staIndy _
  | stxZp _ | stxZpy _ | stxAbs _ | styZp _ | styZpx _ | styAbs _ =>
    exact ⟨_, rfl, next_congr (s.putD_store d _ _)⟩
  | tax | tsx | inx | dex => exact ⟨_, rfl, next_congr ((s.setX _).putD_setZN d _)⟩
  | tay | iny | dey => exact ⟨_, rfl, next_congr ((s.setY _).putD_setZN d _)⟩
  | txa | tya => exact ⟨_, rfl, next_congr ((s.setA _).putD_setZN d _)⟩
  | adcImm _ | adcZp _ | adcZpx _ | adcAbs _ | adcAbsx _ | adcAbsy _ | adcIndx _ | adcIndy _ =>
    exact ⟨_, rfl, next_congr (s.putD_addA d _)⟩
  | sbcImm _ | sbcZp _ | sbcZpx _ | sbcAbs _ | sbcAbsx _ | sbcAbsy _ | sbcIndx _ | sbcIndy _ =>
    exact ⟨_, rfl, next_congr (s.putD_subA d _)⟩
  | andImm _ | andZp _ | andZpx _ | andAbs _ | andAbsx _ | andAbsy _ | andIndx _ | andIndy _
  | oraImm _ | oraZp _ | oraZpx _ | oraAbs _ | oraAbsx _ | oraAbsy _ | oraIndx _ | oraIndy _
  | eorImm _ | eorZp _ | eorZpx _ | eorAbs _ | eorAbsx _ | eorAbsy _ | eorIndx _ | eorIndy _ =>
    exact ⟨_, rfl, next_congr (s.putD_logicA d _ _)⟩
  | bitZp _ | bitAbs _ => exact ⟨_, rfl, next_congr (s.putD_testA d _)⟩
  | cmpImm _ | cmpZp _ | cmpZpx _ | cmpAbs _ | cmpAbsx _ | cmpAbsy _ | cmpIndx _ | cmpIndy _
  | cpxImm _ | cpxZp _ | cpxAbs _ | cpyImm _ | cpyZp _ | cpyAbs _ =>
    exact ⟨_, rfl, next_congr (s.putD_compareWith d _ _)⟩
  | incZp _ | incZpx _ | incAbs _ | incAbsx _ =>
    exact ⟨_, rfl, next_congr (s.putD_rmw d inc_blindToD _)⟩
  | decZp _ | decZpx _ | decAbs _ | decAbsx _ =>
    exact ⟨_, rfl, next_congr (s.putD_rmw d dec_blindToD _)⟩
  | aslAcc | aslZp _ | aslZpx _ | aslAbs _ | aslAbsx _ =>
    exact ⟨_, rfl, next_congr (s.putD_rmw d asl_blindToD _)⟩
  | lsrAcc | lsrZp _ | lsrZpx _ | lsrAbs _ | lsrAbsx _ =>
    exact ⟨_, rfl, next_congr (s.putD_rmw d lsr_blindToD _)⟩
  | rolAcc | rolZp _ | rolZpx _ | rolAbs _ | rolAbsx _ =>
    exact ⟨_, rfl, next_congr (s.putD_rmw d rol_blindToD _)⟩
  | rorAcc | rorZp _ | rorZpx _ | rorAbs _ | rorAbsx _ =>
    exact ⟨_, rfl, next_congr (s.putD_rmw d ror_blindToD _)⟩
  | bcs _ | beq _ | bmi _ | bvs _ =>
    exact ⟨_, rfl, next_congr (s.putD_branch d (s.putD_flag d (by decide)) _)⟩
  | bcc _ | bne _ | bpl _ | bvc _ =>
    exact ⟨_, rfl, next_congr (s.putD_branch d (congrArg not (s.putD_flag d (by decide))) _)⟩
  | jmpInd w =>
    exact ⟨_, rfl, by rw [exec_jmpInd, s.putD_indirectTarget, s.putD_afterIndirect, State.putD_setPc]⟩
  | jsrAbs w =>
    exact ⟨_, rfl, next_congr (congrArg (·.setPc w) (s.putD_push16 d (s.cpu.pc - 1)))⟩
  | pha => exact ⟨_, rfl, next_congr (s.putD_push d _)⟩
  | pla => exact ⟨_, rfl, next_congr ((s.pull.setA _).putD_setZN d _)⟩
  | clc | cli | clv | sec | sei => exact ⟨_, rfl, next_congr (s.putD_putFlag d (by decide) _)⟩
  | txs | jmpAbs _ | rts | nop => exact ⟨_, rfl, rfl⟩
  | cld | sed | plp | rti | php | brk => exact absurd (by decide) hi

/-- Settles O21: bit 3 of P is D, and every operation of the other instructions keeps it apart. -/
theorem decimalFlagNeverAltersArithmetic : Obligations.DecimalFlagNeverAltersArithmetic := by
  intro i s t d hi h
  obtain ⟨t', ht, htd⟩ := exec_putD i s d hi
  obtain rfl := next_inj ht h
  have hput (u : State) : withP u (bitOf u.cpu.p 3 d) = u.putD d := (u.putFlag_eq_withP .d d).symm
  rw [hput, hput, htd]

/-! ### Returns undo calls and entries (44_control_transfer.md section 2, 60_exceptions.md section 6) -/

section

variable (s : State)

/-- The offsets from S wrap at 256, so that two of them name one cell only when they are equal. -/
theorem stackCell_ne {j k : Byte} (h : j ≠ k) : stackCell s j ≠ stackCell s k := fun e => by
  have hoff : s.cpu.s - j = s.cpu.s - k := BitVec.eq_of_toNat_eq (Nat.add_left_cancel e)
  exact h (sub_right_injective hoff)

/-- With S `n` lower, the byte `k` pulls on is the cell `n - k` below the old S. -/
theorem onStack_of_lower {t : State} {n : Byte} (h : t.cpu.s = s.cpu.s - n) (k j : Byte)
    (hj : n - k = j) : onStack t k = t.wram.read (stackCell s j) := by
  rw [onStack, h, sub_add, hj]; rfl

/-- RTS on a pushed return address, S being two lower. -/
theorem exec_rts_of_pushed {t : State} {ret : Word} (hs : t.cpu.s = s.cpu.s - 2)
    (hw : t.wram =
      (s.wram.write (stackCell s 0) (hiByte ret)).write (stackCell s 1) (loByte ret)) :
    exec .rts t = .next { t with cpu := { t.cpu with pc := ret + 1, s := s.cpu.s } } := by
  have hlo : onStack t 1 = loByte ret := by
    rw [onStack_of_lower s hs 1 1 rfl, hw, Memory.read_write_same]
  have hhi : onStack t 2 = hiByte ret := by
    rw [onStack_of_lower s hs 2 0 rfl, hw, Memory.read_write_of_ne _ _ (stackCell_ne s (by decide)),
      Memory.read_write_same]
  obtain ⟨-, -, hrts⟩ := jsrAndRtsUseTheStack t 0
  rw [hrts, hlo, hhi, ofHiLo_bytes, hs, sub_add_cancel]

variable (ret : Word) (pushed : Byte) (vec : Word)

theorem entered_wram_read {a : Nat} (ha : a ∉ [stackCell s 0, stackCell s 1, stackCell s 2]) :
    (entered s ret pushed vec).wram.read a = s.wram.read a := by
  simp only [List.mem_cons, List.not_mem_nil, or_false, not_or] at ha
  obtain ⟨h0, h1, h2⟩ := ha
  rw [entered, Memory.read_write_of_ne _ _ h2, Memory.read_write_of_ne _ _ h1,
    Memory.read_write_of_ne _ _ h0]

/-- RTI right after an interrupt entry pulls the pushed P and the return address. -/
theorem exec_rti_entered :
    exec .rti (entered s ret pushed vec) =
      .next { s with
        wram := (entered s ret pushed vec).wram
        cpu := { s.cpu with pc := ret, p := pushed } } := by
  generalize ht : entered s ret pushed vec = t
  have hs : t.cpu.s = s.cpu.s - 3 := by rw [← ht]; rfl
  have hw : t.wram = ((s.wram.write (stackCell s 0) (hiByte ret)).write (stackCell s 1)
      (loByte ret)).write (stackCell s 2) pushed := by rw [← ht]; rfl
  have hp : onStack t 1 = pushed := by
    rw [onStack_of_lower s hs 1 2 rfl, hw, Memory.read_write_same]
  have hlo : onStack t 2 = loByte ret := by
    rw [onStack_of_lower s hs 2 1 rfl, hw, Memory.read_write_of_ne _ _ (stackCell_ne s (by decide)),
      Memory.read_write_same]
  have hhi : onStack t 3 = hiByte ret := by
    rw [onStack_of_lower s hs 3 0 rfl, hw, Memory.read_write_of_ne _ _ (stackCell_ne s (by decide)),
      Memory.read_write_of_ne _ _ (stackCell_ne s (by decide)), Memory.read_write_same]
  obtain ⟨-, hrti⟩ := rtiRestoresPAndPc t
  rw [hrti, hp, hlo, hhi, ofHiLo_bytes, hs, sub_add_cancel, ← ht]
  rfl

end

/-- Settles O23: the pulls of RTS and RTI find the bytes just pushed, wherever S stands. -/
theorem returnsUndoCallsAndEntries : Obligations.ReturnsUndoCallsAndEntries := by
  refine fun s w => ⟨?_, ?_, ?_⟩
  · obtain ⟨⟨-, hjsr⟩, -⟩ := jsrAndRtsUseTheStack s w
    refine ⟨_, _, hjsr, exec_rts_of_pushed s rfl rfl, ?_, fun a ha => ?_⟩
    · rw [sub_add_cancel]
    · simp only [List.mem_cons, List.not_mem_nil, or_false, not_or] at ha
      obtain ⟨h0, h1⟩ := ha
      rw [Memory.read_write_of_ne _ _ h1, Memory.read_write_of_ne _ _ h0]
  · obtain ⟨-, hbrk⟩ := brkEntersThroughItsVector s (s.cpu.pc - 1) (sub_add_cancel _ _).symm
    exact ⟨_, _, hbrk, exec_rti_entered s _ _ _, rfl, fun a ha => entered_wram_read s _ _ 0xFFFE ha⟩
  · obtain ⟨-, hnmi, -⟩ := nmiEntryPushesAndVectors
    rw [hnmi s]
    exact ⟨_, exec_rti_entered s _ _ _, rfl, fun a ha => entered_wram_read s _ _ 0xFFFA ha⟩

end Sys2Proof.Machine
end
